-- ==== Sys2Proof/Word.lean ====
section
/-!
DEFINITION. The words of the retro-ipod serial decoder core: the widths of 00_scope.md rule R12, the
abstract output record of 30_encoding.md rule R81 and the two outputs of 00_scope.md rule R15.
-/

namespace Sys2Proof

/-- A 32-bit value: the accumulator, a RawPacket, the last accepted frame (R12, R22, R27, R76). -/
abbrev Packet := BitVec 32

/-- An 8-bit value: a counter, a wheel position, a byte of the output record (R12, R51, R78). -/
abbrev Byte := BitVec 8

/-- The 3-bit input event word `ev[2:0]` (R70, R83). -/
abbrev EventWord := BitVec 3

/-- A present button slot `SOME((id, pressed))` of an output record (R81): `id` is the button's packet bit
index, 0..31, and `pressed` its new state. -/
structure Transition where
  id : BitVec 5
  pressed : Bool
  deriving DecidableEq, Repr

/-- The abstract OutputRecord `(slot, wheel)` (R18, R81): the source's `buttonChanged` and `pressed` are both
absent or both present, so they are one optional value. -/
structure OutputRecord where
  slot : Option Transition
  wheel : Byte
  deriving DecidableEq, Repr

/-- The two outputs of the core (R15): the parameterless haptic request, and one 3-byte output record
presented whole, bytes 0, 1 and 2 (R51, R55). -/
inductive Output where
  | hapticFire
  | record (b0 b1 b2 : Byte)
  deriving DecidableEq, Repr

end Sys2Proof
end

