-- ==== Sys2Proof/Syntax.lean ====
section
/-!
DEFINITION. The instructions: one constructor for each row of spec/opcode_table.json (30_encoding.md rule R72).
The event rows have no operand beyond their word (R73); the internal rows carry the operands
41_interpreter.md lists for them (R132 to R146).
-/

namespace Sys2Proof

/-- The rows of the opcode table. -/
inductive Instr where
  /-- `000`, onDataEdge(false) (R101). -/
  | dataLow
  /-- `001`, onDataEdge(true) (R101). -/
  | dataHigh
  /-- `010`, onClockEdge(false), the defined no-op (R75, R102). -/
  | clkFall
  /-- `011`, onClockEdge(true) (R103). -/
  | clkRise
  /-- `100`, the reset input (R200). -/
  | reset
  /-- `101`, reserved (R74). -/
  | reserved101
  /-- `110`, reserved (R74). -/
  | reserved110
  /-- `111`, reserved (R74). -/
  | reserved111
  /-- Internal: VALIDATE of the candidate packet (R132). -/
  | validate (raw : Packet)
  /-- Internal: BUTTON_DECODE of the candidate packet against `prevFrame` (R133). -/
  | buttonDecode (raw : Packet)
  /-- Internal: WHEEL_EXTRACT from the candidate packet (R136). -/
  | wheelExtract (raw : Packet)
  /-- Internal: HAPTIC_DECIDE on a wheel position (R137). -/
  | hapticDecide (wheel : Byte)
  /-- Internal: DEDUP of a candidate record (R146). -/
  | dedup (rec : OutputRecord)
  /-- Internal: DISPATCH of a candidate record and its packet (R142). -/
  | dispatch (rec : OutputRecord) (raw : Packet)
  deriving DecidableEq, Repr

/-- The rows the table marks `"decoded": true` (R72): those an event word can name. The six internal rows run
inside a CLK_RISE and have no word of their own. -/
def Instr.isEvent : Instr → Bool
  | .dataLow => true
  | .dataHigh => true
  | .clkFall => true
  | .clkRise => true
  | .reset => true
  | .reserved101 => true
  | .reserved110 => true
  | .reserved111 => true
  | .validate _ => false
  | .buttonDecode _ => false
  | .wheelExtract _ => false
  | .hapticDecide _ => false
  | .dedup _ => false
  | .dispatch _ _ => false

/-- The rows the table marks `"reserved": true` (R74). -/
def Instr.isReserved : Instr → Bool
  | .dataLow => false
  | .dataHigh => false
  | .clkFall => false
  | .clkRise => false
  | .reset => false
  | .reserved101 => true
  | .reserved110 => true
  | .reserved111 => true
  | .validate _ => false
  | .buttonDecode _ => false
  | .wheelExtract _ => false
  | .hapticDecide _ => false
  | .dedup _ => false
  | .dispatch _ _ => false

end Sys2Proof
end

