-- ==== Sys2Proof/Decode.lean ====
section
/-!
DEFINITION. The event word of format E (30_encoding.md rules R70 to R74 and R83): its fields, the decoder, which
is total on the eight words, and the encoder.
-/

namespace Sys2Proof

/-- `rst = ev[2]` (R71): 1 for a reset event. -/
def evRst (w : EventWord) : Bool := w.getLsbD 2

/-- `line = ev[1]` (R71): 0 the data line, 1 the clock line. -/
def evLine (w : EventWord) : Bool := w.getLsbD 1

/-- `level = ev[0]` (R71, R73): the line's level after the transition. -/
def evLevel (w : EventWord) : Bool := w.getLsbD 0

/-- The decode table of R72. Each of the eight words names exactly one row; the three reserved words name the
reserved rows (R74). No word names an internal row (R72). -/
def decode (w : EventWord) : Instr :=
  match evRst w, evLine w, evLevel w with
  | false, false, false => .dataLow
  | false, false, true => .dataHigh
  | false, true, false => .clkFall
  | false, true, true => .clkRise
  | true, false, false => .reset
  | true, false, true => .reserved101
  | true, true, false => .reserved110
  | true, true, true => .reserved111

/-- The event word of a row (R72); `none` for an internal row, which has no word of its own. -/
def encode : Instr → Option EventWord
  | .dataLow => some 0b000#3
  | .dataHigh => some 0b001#3
  | .clkFall => some 0b010#3
  | .clkRise => some 0b011#3
  | .reset => some 0b100#3
  | .reserved101 => some 0b101#3
  | .reserved110 => some 0b110#3
  | .reserved111 => some 0b111#3
  | .validate _ => none
  | .buttonDecode _ => none
  | .wheelExtract _ => none
  | .hapticDecide _ => none
  | .dedup _ => none
  | .dispatch _ _ => none

/-- Why a number is rejected by the decoder. -/
inductive DecodeError where
  /-- The number has a bit above bit 2, and every event word is exactly 3 bits long (R83). -/
  | notAnEventWord
  deriving DecidableEq, Repr

/-- The event word a number stands for, if it fits in 3 bits (R83). -/
def eventWordOf (n : Nat) : Except DecodeError EventWord :=
  if n < 8 then .ok (BitVec.ofNat 3 n) else .error .notAnEventWord

/-- The decoder on any number: the row, or the named rejection. -/
def decodeNumber (n : Nat) : Except DecodeError Instr := (eventWordOf n).map decode

/-- The instruction the decoder reads from the low `nbits` bits of `w`, bit 0 least significant. -/
def decodeTableWord (nbits w : Nat) : Option Instr := (decodeNumber (w % 2 ^ nbits)).toOption

end Sys2Proof
end

