-- ==== Sys2Proof/Machine/Params.lean ====
section
/-!
DEFINITION. The fixed build-time parameters of 00_scope.md rule R10, each at the value the spec gives this
hardware. The OPEN parameters are in Sys2Proof/Config.lean.
-/

namespace Sys2Proof.Machine

/-- `PACKET_LEN` (R10): the samples of one window, the width of the accumulator. -/
def packetLen : Nat := 32

/-- `RUN_THRESHOLD` (R10): the run of ones that de-synchronises the assembler. -/
def runThreshold : Nat := 32

/-- `MARKER_MASK` (R10, R77): bits 4..0 of a packet. -/
def markerMask : Packet := 0x0000001F#32

/-- `MARKER_VALUE` (R10, R77): the samples 0,1,1,0,1 at bits 0..4 (the spec's decision D7, conflict C2). -/
def markerValue : Packet := 0x00000016#32

/-- `BTN_CENTER` (R10): the one button position the spec gives. -/
def btnCenter : Nat := 7

/-- `WHEEL_OFFSET` (R10, R78): the packet bit that is the wheel's least significant bit (decision D9). -/
def wheelOffset : Nat := 16

/-- `SENTINEL` (R10, R81): byte 0 of a record with no button transition. -/
def sentinel : Byte := 0xFF#8

/-- The largest value of the saturating `u8` run count (R24, R105; decision D5). -/
def runSaturation : Byte := 255#8

end Sys2Proof.Machine
end

