-- ==== Sys2Proof/Config.lean ====
section
/-!
DEFINITION. The OPEN parameters of 00_scope.md rule R10, the configuration check of rule R11, and the model's
free values: constants without a body, which no proof can evaluate.
-/

namespace Sys2Proof

/-- ButtonId (R18, R79): the six buttons. -/
inductive ButtonId where
  | center
  | left
  | right
  | up
  | down
  | wheelTouch
  deriving DecidableEq, Repr

/-- The fixed enumeration order of the buttons (R79, R133, R134). -/
def ButtonId.order : List ButtonId := [.center, .left, .right, .up, .down, .wheelTouch]

/-- The five OPEN button positions of R10 (decision D21): natural numbers, fixed at build time. -/
structure Config where
  left : Nat
  right : Nat
  up : Nat
  down : Nat
  wheelTouch : Nat
  deriving DecidableEq, Repr

/-- `pos(B)` (R79): the packet bit index of a button; Center's is the fixed `BTN_CENTER`. -/
def Config.pos (c : Config) : ButtonId → Nat
  | .center => Machine.btnCenter
  | .left => c.left
  | .right => c.right
  | .up => c.up
  | .down => c.down
  | .wheelTouch => c.wheelTouch

/-- The six positions in enumeration order. -/
def Config.positions (c : Config) : List Nat := ButtonId.order.map c.pos

/-- The range condition of R11: each position lies in 0..31. -/
def Config.inRange (c : Config) : Bool := c.positions.all (· < 32)

/-- The distinctness condition of R11: no two buttons share a position. -/
def Config.distinct (c : Config) : Bool := decide c.positions.Nodup

/-- The configuration check of R11. A configuration that fails it is refused (R176). -/
def Config.valid (c : Config) : Bool := c.inRange && c.distinct

/-- FREE VALUE (notes/assumptions/1.md). The configuration of the device at hand: some configuration that
passes R11's check, and nothing more is known of it (R10: OPEN; decision D21). It has no body. The bracketed
argument is only the evidence the type checker asks for that such a configuration exists; no proof can carry
its value through. -/
opaque Config.device [Inhabited { c : Config // c.valid = true }] : { c : Config // c.valid = true }

/-- FREE VALUE (notes/assumptions/2.md). `DATA_LEVEL_RESET` (R10, R200; decision D16): the data-line level the
`n`-th RESET draws. It has no body, so a claim holds for every sequence of draws. -/
opaque Config.dataLevelReset : Nat → Bool

end Sys2Proof
end

