-- ==== Sys2Proof/Machine/Operands.lean ====
section
/-!
DEFINITION. The operand forms: the fields of a RawPacket (30_encoding.md rules R76 to R79), the one-bit cells
of the accumulator (20_memory.md rule R50) and the 3-byte encoding of an output record (rule R81).
-/

namespace Sys2Proof.Machine

/-- `v[i]` (R13): bit `i` of a packet, bit 0 least significant. -/
def packetBit (v : Packet) (i : Nat) : Bool := v.getLsbD i

/-- `bits[i] <- b` (R14, R50): write one cell, leave the other 31 alone. There is no cell above 31, so a
write there changes nothing (no run reaches it: R34 item 1; notes/assumptions/6.md). -/
def setPacketBit (v : Packet) (i : Nat) (b : Bool) : Packet :=
  if b then v ||| BitVec.twoPow 32 i else v &&& ~~~BitVec.twoPow 32 i

/-- The marker check (R77): `(raw AND MARKER_MASK) = MARKER_VALUE`. -/
def markerMatches (raw : Packet) : Bool := raw &&& markerMask == markerValue

/-- The wheel field `raw[23:16]` (R78), bit 16 least significant (decision D9). -/
def wheelField (raw : Packet) : Byte := raw.extractLsb' wheelOffset 8

/-- The parity test `wheel[0] = 0` (R78, R137). -/
def wheelEven (wheel : Byte) : Bool := !wheel.getLsbD 0

/-- One iteration of BUTTON_DECODE's loop (R133): a changed button overwrites the slot. -/
def decodeButton (c : Config) (raw prev : Packet) (slot : Option Transition) (b : ButtonId) :
    Option Transition :=
  if packetBit raw (c.pos b) != packetBit prev (c.pos b) then
    some { id := BitVec.ofNat 5 (c.pos b), pressed := packetBit raw (c.pos b) }
  else slot

/-- BUTTON_DECODE's loop (R133): from `NONE`, over the six buttons in enumeration order, so the last changed
button wins (R134). -/
def decodeButtons (c : Config) (raw prev : Packet) : Option Transition :=
  ButtonId.order.foldl (decodeButton c raw prev) none

/-- Byte 0 of a record (R81): the button's packet bit index (decision D8), or the sentinel. -/
def recordByte0 (r : OutputRecord) : Byte :=
  match r.slot with
  | none => sentinel
  | some t => t.id.zeroExtend 8

/-- Byte 1 of a record (R81): 1 pressed, 0 released; 0 beside the sentinel (decision D10). -/
def recordByte1 (r : OutputRecord) : Byte :=
  match r.slot with
  | none => 0x00#8
  | some t => if t.pressed then 0x01#8 else 0x00#8

/-- Byte 2 of a record (R81): the wheel position. -/
def recordByte2 (r : OutputRecord) : Byte := r.wheel

/-- `RECORD(byte0, byte1, byte2)` (R15, R55, R81): the record as it leaves the port. -/
def recordOutput (r : OutputRecord) : Output :=
  .record (recordByte0 r) (recordByte1 r) (recordByte2 r)

/-- The 24-bit view `{byte2, byte1, byte0}` of a record (R56; decision D28), byte 0 in bits 7..0. Nothing in
the core depends on it. -/
def recordWord24 (r : OutputRecord) : BitVec 24 :=
  recordByte2 r ++ recordByte1 r ++ recordByte0 r

end Sys2Proof.Machine
end

