-- ==== Sys2Proof/Machine/State.lean ====
section
/-!
DEFINITION. The state: the registers of 10_state.md rule R21 with the refusal mark of 60_exceptions.md rule
R176, and beside them what the model of one step needs from outside the core. Plain data throughout.
-/

namespace Sys2Proof.Machine

/-- Why a step faults. The core raises no exception and has no fault state (R170, R174, 93_implementation_defined.md
section 1), so this type has no constructor: no step faults, which is safe because no behaviour is left out. -/
inductive Fault where
  deriving DecidableEq, Repr

/-- Why a step is refused by the model. -/
inductive Refusal where
  /-- Raised only by an arm of `exec` that has no meaning yet; no arm is so now. Safe: the model stops where
  the hardware goes on. The spec's own refusal (R176) is no such stop: it is a next state with the refusal
  mark set. -/
  | notModelled (mnemonic : String)
  deriving DecidableEq, Repr

/-- The complete architectural state of the core, exactly the fields of R21, and the refusal mark. -/
structure Registers where
  /-- The 32-bit accumulator (R22), 32 one-bit cells addressed by `bitIndex` (R50). -/
  bits : Packet
  /-- The position of the next written sample, 0..31 at every step boundary (R23). -/
  bitIndex : Byte
  /-- The consecutive samples equal to 1, saturating at 255 (R24). -/
  oneRunLength : Byte
  /-- The assembler's only flag (R25, R31). -/
  synchronized : Bool
  /-- The latched level of the data line (R26). -/
  dataLevel : Bool
  /-- The last accepted frame (R27). -/
  prevFrame : Packet
  /-- The last record dispatched, or `none` before the first (R28). -/
  lastRecord : Option OutputRecord
  /-- The haptic-evaluated position, or `none` before the first (R29). -/
  hapticPos : Option Byte
  /-- The refusal mark (R176). -/
  refusalMark : Bool
  deriving DecidableEq, Repr

/-- INTERPRET's temporaries (R133, R136, R144): values of one step, which live between two of its
sub-operations and are cleared before the step ends. They are no state of the core (R21), and at every step
boundary they are `Temps.idle`. -/
structure Temps where
  /-- INTERPRET has returned: VALIDATE rejected the packet (R132) or DEDUP suppressed the record (R146). -/
  returned : Bool
  /-- BUTTON_DECODE's `slot` (R133). -/
  slot : Option Transition
  /-- WHEEL_EXTRACT's `wheel` (R136). -/
  wheel : Byte
  deriving DecidableEq, Repr

/-- The temporaries when no INTERPRET is running. -/
def Temps.idle : Temps := { returned := false, slot := none, wheel := 0#8 }

/-- The model's state: the core's registers, and five fields of the model's own, none of which is a register
of the core (R21, R38). -/
structure State extends Registers where
  /-- The configuration the core was built with: the argument R10 asks the model to take. No step writes it. -/
  cfg : Config
  /-- The event words the environment has yet to deliver, the next one first (R61, R65). -/
  pending : List EventWord
  /-- The outputs emitted so far, oldest first: the observation of the run (R15, R188). -/
  out : List Output
  /-- How many values of DATA_LEVEL_RESET have been drawn: the index of the next free value (R200). -/
  draws : Nat
  /-- INTERPRET's temporaries, idle at every step boundary. -/
  temps : Temps
  deriving DecidableEq, Repr

/-- The registers right after a reset that drew `level` (R35). -/
def Registers.afterReset (level : Bool) : Registers :=
  { bits := 0x00000000#32
    bitIndex := 0#8
    oneRunLength := 0#8
    synchronized := false
    dataLevel := level
    prevFrame := 0x00000000#32
    lastRecord := none
    hapticPos := none
    refusalMark := false }

/-- Evidence that some configuration passes R11's check, so that the free value `Config.device` can stand. Its
numbers reach nothing: `Config.device` has no body. -/
def someValidConfig : { c : Config // c.valid = true } :=
  ⟨{ left := 0, right := 1, up := 2, down := 3, wheelTouch := 4 }, by decide⟩

/-- The machine right after reset (R35, R201): the state after one RESET, at a configuration of which only
R11 is known, with no event delivered yet. -/
def State.reset : State :=
  { toRegisters := Registers.afterReset (Config.dataLevelReset 0)
    cfg := (@Config.device ⟨someValidConfig⟩).val
    pending := []
    out := []
    draws := 1
    temps := Temps.idle }

end Sys2Proof.Machine
end

