-- ==== Sys2Proof/Machine/Ops.lean ====
section
/-!
DEFINITION. The named operations over the state that the meanings share: changing registers, the two output
ports (00_scope.md rule R15), the refusal (60_exceptions.md rule R176), the accumulator write (rule R108), the
delivery of an event (rule R61) and INTERPRET's temporaries. The core takes no exception and returns from none
(R170, R180, R181): the refusal is its only outcome besides a normal step.
-/

namespace Sys2Proof.Machine

/-- Change the registers and nothing else. -/
def State.onRegs (s : State) (f : Registers → Registers) : State :=
  { s with toRegisters := f s.toRegisters }

/-- `emit` (R15): append one output to the observation. -/
def State.emit (s : State) (o : Output) : State := { s with out := s.out ++ [o] }

/-- Change INTERPRET's temporaries and nothing else. -/
def State.onTemps (s : State) (f : Temps → Temps) : State := { s with temps := f s.temps }

/-- The temporaries end with the step that used them (R133, R136: "a temporary of the step, not state"). -/
def State.clearTemps (s : State) : State := s.onTemps fun _ => Temps.idle

/-- The refusal of R176: no register changes, nothing is emitted, and the refusal mark is set. -/
def State.refuse (s : State) : State := s.onRegs fun r => { r with refusalMark := true }

/-- Process an event under the configuration check of R11: a broken configuration refuses it (R176). -/
def State.whenConfigured (s : State) (f : State → State) : State :=
  if s.cfg.valid then f s else s.refuse

/-- `dataLevel <- level` (R101). -/
def Registers.setDataLevel (level : Bool) (r : Registers) : Registers := { r with dataLevel := level }

/-- The write of R108: the sample into the cell `bitIndex` names, and `bitIndex` one further. -/
def Registers.writeSample (sample : Bool) (r : Registers) : Registers :=
  { r with
    bits := setPacketBit r.bits r.bitIndex.toNat sample
    bitIndex := r.bitIndex + 1#8 }

/-- `bitIndex <- 0` at a completed window (R109); `bits` is not cleared (R110). -/
def Registers.rewind (r : Registers) : Registers := { r with bitIndex := 0#8 }

/-- The next event of the environment's sequence and the state once it is delivered (R61); `none` while the
core waits for one (R187, R201). -/
def State.nextEvent (s : State) : Option (EventWord × State) :=
  match s.pending with
  | [] => none
  | w :: rest => some (w, { s with pending := rest })

/-- Place an event word where the next step takes its event: in front of the environment's sequence. A number
that is no event word (R83) places nothing. -/
def State.placeEvent (s : State) (n : Nat) : State :=
  if n < 8 then { s with pending := BitVec.ofNat 3 n :: s.pending } else s

end Sys2Proof.Machine
end

