-- ==== Sys2Proof/Machine/Flags.lean ====
section
/-!
DEFINITION. The core's only flag, `synchronized` (10_state.md rules R25 and R31), and the run count that rules
it: 40_assembler.md rules R105 to R107.
-/

namespace Sys2Proof.Machine

/-- The saturating increment of the run count (R105, R114; decision D5). -/
def saturatingSucc (c : Byte) : Byte := if c = runSaturation then runSaturation else c + 1#8

/-- A sample of 1 counts (R105). -/
def Registers.countOne (r : Registers) : Registers :=
  { r with oneRunLength := saturatingSucc r.oneRunLength }

/-- The guard's test (R106; decision D6): the count is at RUN_THRESHOLD or above. -/
def runReached (c : Byte) : Bool := decide (runThreshold ≤ c.toNat)

/-- The de-synchronisation guard (R106; decision D6): at RUN_THRESHOLD ones or more, `synchronized <- 0` and
`bitIndex <- 0`; neither `bits` nor the count is cleared. -/
def Registers.guardRun (r : Registers) : Registers :=
  if runReached r.oneRunLength then { r with synchronized := false, bitIndex := 0#8 } else r

/-- A sample of 0 re-synchronises (R107): `bitIndex` is left alone. -/
def Registers.resync (r : Registers) : Registers :=
  { r with synchronized := true, oneRunLength := 0#8 }

/-- The synchronisation part of one CLK_RISE, before the write (R103, R105 to R107; decision D4). -/
def Registers.updateSync (sample : Bool) (r : Registers) : Registers :=
  if sample then r.countOne.guardRun else r.resync

end Sys2Proof.Machine
end

