-- ==== Sys2Proof/Machine/Interpret.lean ====
section
/-!
DEFINITION. The packet interpreter (41_interpreter.md): the six internal rows, each with its meaning, and
INTERPRET, their composition in the order of rule R144.
-/

namespace Sys2Proof.Machine

/-- VALIDATE (R132): a packet without the marker makes INTERPRET return. -/
def validate (raw : Packet) (s : State) : State :=
  s.onTemps fun t => { t with returned := !markerMatches raw }

/-- BUTTON_DECODE (R133 to R135): the slot of `raw` against `prevFrame`. -/
def buttonDecode (raw : Packet) (s : State) : State :=
  s.onTemps fun t => { t with slot := decodeButtons s.cfg raw s.prevFrame }

/-- WHEEL_EXTRACT (R136). -/
def wheelExtract (raw : Packet) (s : State) : State :=
  s.onTemps fun t => { t with wheel := wheelField raw }

/-- The condition of HAPTIC_DECIDE (R137): an even position other than the last one evaluated, where `NONE`
counts as other (decision D12). -/
def hapticFires (wheel : Byte) (hapticPos : Option Byte) : Bool :=
  hapticPos != some wheel && wheelEven wheel

/-- HAPTIC_DECIDE (R137, R138): the backend's readiness is no input. -/
def hapticDecide (wheel : Byte) (s : State) : State :=
  if hapticFires wheel s.hapticPos then
    (s.onRegs fun r => { r with hapticPos := some wheel }).emit .hapticFire
  else s

/-- DEDUP (R146): a record equal to the last one dispatched makes INTERPRET return. -/
def dedup (rec : OutputRecord) (s : State) : State :=
  s.onTemps fun t => { t with returned := s.lastRecord == some rec }

/-- DISPATCH (R142): remember the packet and the record, and emit the record. -/
def dispatch (rec : OutputRecord) (raw : Packet) (s : State) : State :=
  (s.onRegs fun r => { r with prevFrame := raw, lastRecord := some rec }).emit (recordOutput rec)

/-- The candidate record of INTERPRET's temporaries (R139). -/
def State.candidate (s : State) : OutputRecord := { slot := s.temps.slot, wheel := s.temps.wheel }

/-- Steps 5 and 6 of INTERPRET (R144): DEDUP, and DISPATCH unless it suppresses. -/
def dedupDispatch (rec : OutputRecord) (raw : Packet) (s : State) : State :=
  let s := dedup rec s
  if s.temps.returned then s else dispatch rec raw s

/-- Steps 2 to 4 of INTERPRET (R144), on an accepted packet. -/
def decodeFrame (raw : Packet) (s : State) : State :=
  let s := wheelExtract raw (buttonDecode raw s)
  hapticDecide s.temps.wheel s

/-- INTERPRET in full (R144). -/
def interpret (raw : Packet) (s : State) : State :=
  let s := validate raw s
  if s.temps.returned then s
  else
    let s := decodeFrame raw s
    dedupDispatch s.candidate raw s

/-- The meaning of the VALIDATE row. -/
def execValidate (raw : Packet) (s : State) : Host.Outcome State Fault Refusal :=
  .next (validate raw s)

/-- The meaning of the BUTTON_DECODE row. -/
def execButtonDecode (raw : Packet) (s : State) : Host.Outcome State Fault Refusal :=
  .next (buttonDecode raw s)

/-- The meaning of the WHEEL_EXTRACT row. -/
def execWheelExtract (raw : Packet) (s : State) : Host.Outcome State Fault Refusal :=
  .next (wheelExtract raw s)

/-- The meaning of the HAPTIC_DECIDE row. -/
def execHapticDecide (wheel : Byte) (s : State) : Host.Outcome State Fault Refusal :=
  .next (hapticDecide wheel s)

/-- The meaning of the DEDUP row. -/
def execDedup (rec : OutputRecord) (s : State) : Host.Outcome State Fault Refusal :=
  .next (dedup rec s)

/-- The meaning of the DISPATCH row. -/
def execDispatch (rec : OutputRecord) (raw : Packet) (s : State) : Host.Outcome State Fault Refusal :=
  .next (dispatch rec raw s)

end Sys2Proof.Machine
end

