-- ==== Sys2Proof/Machine/Edge.lean ====
section
/-!
DEFINITION. The edge events (40_assembler.md): DATA_LOW, DATA_HIGH, CLK_FALL and CLK_RISE.
-/

namespace Sys2Proof.Machine

/-- The handoff (R109, R110): `bitIndex` returns to 0 and INTERPRET runs on the whole accumulator inside this
step; its temporaries end with it. -/
def handoff (s : State) : State :=
  (interpret s.bits (s.onRegs Registers.rewind)).clearTemps

/-- The window is complete (R109): the increment made `bitIndex` PACKET_LEN. -/
def windowComplete (k : Byte) : Bool := k.toNat == packetLen

/-- The second half of CLK_RISE (R103, R108, R109): write the sample if synchronised, and hand off a window
the write completes. -/
def writeAndHandoff (sample : Bool) (s : State) : State :=
  if s.synchronized then
    let s := s.onRegs (Registers.writeSample sample)
    if windowComplete s.bitIndex then handoff s else s
  else s

/-- CLK_RISE (R103, R104): the sample is `dataLevel` as it stands. -/
def clockRise (s : State) : State :=
  writeAndHandoff s.dataLevel (s.onRegs (Registers.updateSync s.dataLevel))

/-- The meaning of DATA_LOW (R101). -/
def execDataLow (s : State) : Host.Outcome State Fault Refusal :=
  .next (s.whenConfigured fun s => s.onRegs (Registers.setDataLevel false))

/-- The meaning of DATA_HIGH (R101). -/
def execDataHigh (s : State) : Host.Outcome State Fault Refusal :=
  .next (s.whenConfigured fun s => s.onRegs (Registers.setDataLevel true))

/-- The meaning of CLK_FALL (R102): nothing. -/
def execClkFall (s : State) : Host.Outcome State Fault Refusal :=
  .next (s.whenConfigured fun s => s)

/-- The meaning of CLK_RISE (R103). -/
def execClkRise (s : State) : Host.Outcome State Fault Refusal :=
  .next (s.whenConfigured clockRise)

end Sys2Proof.Machine
end

