-- ==== Sys2Proof/Machine/Reset.lean ====
section
/-!
DEFINITION. RESET (70_reset_and_hazards.md rule R200) and the reserved event words (30_encoding.md rule R74).
-/

namespace Sys2Proof.Machine

/-- RESET (R200): every register to its value of R35, the refusal mark cleared, and `dataLevel` a fresh draw of
DATA_LEVEL_RESET. The configuration is not touched, and nothing is emitted. -/
def resetEvent (s : State) : State :=
  { s with
    toRegisters := Registers.afterReset (Config.dataLevelReset s.draws)
    draws := s.draws + 1 }

/-- The meaning of RESET (R200). -/
def execReset (s : State) : Host.Outcome State Fault Refusal :=
  .next (s.whenConfigured resetEvent)

/-- The meaning of the reserved word `101` (R74, R176). -/
def execReserved101 (s : State) : Host.Outcome State Fault Refusal := .next s.refuse

/-- The meaning of the reserved word `110` (R74, R176). -/
def execReserved110 (s : State) : Host.Outcome State Fault Refusal := .next s.refuse

/-- The meaning of the reserved word `111` (R74, R176). -/
def execReserved111 (s : State) : Host.Outcome State Fault Refusal := .next s.refuse

end Sys2Proof.Machine
end

