-- ==== Sys2Proof/Machine/Dispatch.lean ====
section
/-!
DEFINITION. The dispatch: one arm per constructor of Instr.
-/

namespace Sys2Proof.Machine

def exec (i : Instr) (s : State) : Host.Outcome State Fault Refusal :=
  match i with
  | .dataLow => Sys2Proof.Machine.execDataLow s
  | .dataHigh => Sys2Proof.Machine.execDataHigh s
  | .clkFall => Sys2Proof.Machine.execClkFall s
  | .clkRise => Sys2Proof.Machine.execClkRise s
  | .reset => Sys2Proof.Machine.execReset s
  | .reserved101 => Sys2Proof.Machine.execReserved101 s
  | .reserved110 => Sys2Proof.Machine.execReserved110 s
  | .reserved111 => Sys2Proof.Machine.execReserved111 s
  | .validate raw => Sys2Proof.Machine.execValidate raw s
  | .buttonDecode raw => Sys2Proof.Machine.execButtonDecode raw s
  | .wheelExtract raw => Sys2Proof.Machine.execWheelExtract raw s
  | .hapticDecide wheel => Sys2Proof.Machine.execHapticDecide wheel s
  | .dedup rec => Sys2Proof.Machine.execDedup rec s
  | .dispatch rec raw => Sys2Proof.Machine.execDispatch rec raw s

end Sys2Proof.Machine
end

