-- ==== Sys2Proof/Machine/Step.lean ====
section
/-!
DEFINITION. One step: the next event the environment delivers selects it (10_state.md rule R20), and it is
processed whole (00_scope.md rule R17).
-/

namespace Sys2Proof.Machine

/-- One step of the machine (R17, R20, R61). With no event to deliver the core waits, its state unchanged
(R187, R201). -/
def step (s : State) : Host.Outcome State Fault Refusal :=
  match s.nextEvent with
  | none => .next s
  | some (w, s') => exec (decode w) s'

/-- `s` with the event word of the low `nbits` bits of `w` as the next event delivered. -/
def State.withFetchWord (s : State) (nbits w : Nat) : State := s.placeEvent (w % 2 ^ nbits)

end Sys2Proof.Machine
end

