-- ==== Sys2Proof/Machine/Script.lean ====
section
/-!
DEFINITION. The event scripts of 30_encoding.md rules R84 and R85: the spec's own notation for event sequences
(decision D26). Nothing in the core depends on it.
-/

namespace Sys2Proof.Machine

/-- `D0` (R84). -/
def scriptD0 : EventWord := 0b000#3

/-- `D1` (R84). -/
def scriptD1 : EventWord := 0b001#3

/-- `C0` (R84). -/
def scriptC0 : EventWord := 0b010#3

/-- `C1` (R84). -/
def scriptC1 : EventWord := 0b011#3

/-- `RST` (R84). -/
def scriptRst : EventWord := 0b100#3

/-- `BIT b` (R85): the data level, then one rising and one falling clock edge. -/
def scriptBit (b : Bool) : List EventWord := [if b then scriptD1 else scriptD0, scriptC1, scriptC0]

/-- The first `n` bits of `v` from bit `i` on, each as a `BIT`, least significant first. -/
def scriptBitsFrom (v : Packet) (i : Nat) : Nat → List EventWord
  | 0 => []
  | n + 1 => scriptBit (v.getLsbD i) ++ scriptBitsFrom v (i + 1) n

/-- `PKT v` (R85): the 32 bits of `v`, least significant first. -/
def scriptPkt (v : Packet) : List EventWord := scriptBitsFrom v 0 32

/-- `n` times `BIT b`. -/
def scriptRun (b : Bool) : Nat → List EventWord
  | 0 => []
  | n + 1 => scriptBit b ++ scriptRun b n

/-- `ONES n` (R85). -/
def scriptOnes (n : Nat) : List EventWord := scriptRun true n

/-- `ZEROS n` (R85). -/
def scriptZeros (n : Nat) : List EventWord := scriptRun false n

/-- `ALIGN` (R85). -/
def scriptAlign : List EventWord := scriptOnes 32 ++ scriptZeros 32

/-- The encoding of a script as one number per event (R84). -/
def scriptDigits (ws : List EventWord) : List Nat := ws.map BitVec.toNat

end Sys2Proof.Machine
end

