-- ==== Sys2Proof/Safety.lean ====
section
/-!
DEFINITION. The terms claims are made in: the invariants of 10_state.md rule R34, what stands at a step
boundary, the delivery of an event sequence (20_memory.md rule R61), and the outputs as a consumer sees them.
-/

namespace Sys2Proof

open Machine

/-- The seven invariants of R34, in its order. -/
structure Inv (s : State) : Prop where
  /-- R34 item 1. -/
  index_lt : s.bitIndex.toNat < 32
  /-- R34 item 2. -/
  sync_run : s.synchronized = true → s.oneRunLength.toNat ≤ 31
  /-- R34 item 3. -/
  unsync_index : s.synchronized = false → s.bitIndex = 0#8
  /-- R34 item 4. -/
  haptic_even : ∀ p, s.hapticPos = some p → wheelEven p = true
  /-- R34 item 5. -/
  pressed_prev : ∀ r t, s.lastRecord = some r → r.slot = some t →
    packetBit s.prevFrame t.id.toNat = t.pressed
  /-- R34 item 6. -/
  even_haptic : ∀ r, s.lastRecord = some r → wheelEven r.wheel = true → s.hapticPos = some r.wheel
  /-- R34 item 7. -/
  none_prev : s.lastRecord = none → s.prevFrame = 0x00000000#32

/-- No INTERPRET is running: the temporaries hold nothing, so the state is R21's tuple and no more. -/
def AtBoundary (s : State) : Prop := s.temps = Temps.idle

/-- Whether an output is a RECORD. -/
def isRecord : Output → Bool
  | .hapticFire => false
  | .record _ _ _ => true

/-- The last RECORD of a list of outputs, oldest first. -/
def lastRecordOf (os : List Output) : Option Output := os.reverse.find? isRecord

/-- What the core remembers as its last record is the last RECORD it emitted (R28). -/
def TraceAgrees (s : State) : Prop :=
  ∀ r, s.lastRecord = some r → lastRecordOf s.out = some (recordOutput r)

/-- A legal output (R82): byte 0 is the sentinel or one of the six positions, byte 1 is 0 or 1. -/
def legalOutput (c : Config) : Output → Bool
  | .hapticFire => true
  | .record b0 b1 _ =>
    (b0 == sentinel || c.positions.any (fun p => b0 == BitVec.ofNat 8 p)) && (b1 == 0#8 || b1 == 1#8)

/-- Two packets agree in all that INTERPRET reads (R80): the marker bits, the wheel field and the six button
positions. -/
def sameFields (c : Config) (a b : Packet) : Prop :=
  a &&& markerMask = b &&& markerMask ∧ wheelField a = wheelField b ∧
    ∀ k : ButtonId, packetBit a (c.pos k) = packetBit b (c.pos k)

/-- `n` steps, stopping at the first fault or refusal. -/
def steps : Nat → State → Host.Outcome State Fault Refusal
  | 0, s => .next s
  | n + 1, s =>
    match step s with
    | .next t => steps n t
    | .fault r => .fault r
    | .refused r => .refused r

/-- Deliver an event sequence (R61): each word in turn is placed as the next event and the machine makes one
step; the environment's own sequence waits behind. -/
def deliver : List EventWord → State → Host.Outcome State Fault Refusal
  | [], s => .next s
  | w :: ws, s =>
    match step { s with pending := w :: s.pending } with
    | .next t => deliver ws t
    | .fault r => .fault r
    | .refused r => .refused r

end Sys2Proof
end

