-- ==== Sys2Proof/WellFormed.lean ====
section
/-!
DEFINITION. Which instructions are well formed: the operands with which INTERPRET runs an internal row
(41_interpreter.md rules R131, R139 and R144). The configuration's own check is Config.valid (R11).
The meanings do not depend on it.
-/

namespace Sys2Proof

/-- BUTTON_DECODE, WHEEL_EXTRACT and DISPATCH run only on a packet VALIDATE accepted (R132, R144). -/
def accepted (raw : Packet) : Bool := Machine.markerMatches raw

/-- The wheel of a dispatched record is its packet's wheel field (R136, R139). -/
def wheelAgrees (rec : OutputRecord) (raw : Packet) : Bool := rec.wheel == Machine.wheelField raw

/-- The pressed state of a dispatched record's slot is its packet's bit at the slot's position (R133, R139). -/
def slotAgrees (rec : OutputRecord) (raw : Packet) : Bool :=
  match rec.slot with
  | none => true
  | some t => t.pressed == Machine.packetBit raw t.id.toNat

/-- Well-formedness of an instruction. An event row has no operand, so nothing to check (R73). -/
def WellFormed : Instr → Bool
  | .dataLow => true
  | .dataHigh => true
  | .clkFall => true
  | .clkRise => true
  | .reset => true
  | .reserved101 => true
  | .reserved110 => true
  | .reserved111 => true
  | .validate _ => true
  | .buttonDecode raw => accepted raw
  | .wheelExtract raw => accepted raw
  | .hapticDecide _ => true
  | .dedup _ => true
  | .dispatch rec raw => accepted raw && wheelAgrees rec raw && slotAgrees rec raw

end Sys2Proof
end

