-- ==== Sys2Proof/Certificates/Slice0/Obligations.lean ====
section
/-!
DEFINITION. The statements for the provers. Each docstring names the rule of spec/ it formalises; "decision D<n>"
is a choice of the spec's own (92_eei_decisions.md), "log <n>" a choice of this model (notes/assumptions/<n>.md).
-/

open Sys2Proof Sys2Proof.Machine

/-- R72: the eight event words, as tabled. -/
def Obligations.EventWordsDecodeAsTabled : Prop :=
  decode 0b000#3 = .dataLow ∧ decode 0b001#3 = .dataHigh ∧ decode 0b010#3 = .clkFall ∧
    decode 0b011#3 = .clkRise ∧ decode 0b100#3 = .reset ∧ decode 0b101#3 = .reserved101 ∧
    decode 0b110#3 = .reserved110 ∧ decode 0b111#3 = .reserved111

/-- R72, R83: the decoder and the encoder agree on every row and every word; a number that does not fit in 3 bits
is rejected by name. -/
def Obligations.DecodeEncodeRoundTrip : Prop :=
  (∀ i w, encode i = some w → decode w = i) ∧ (∀ w, encode (decode w) = some w) ∧
    (∀ n, 8 ≤ n → decodeNumber n = .error .notAnEventWord)

/-- R17, R20, R61, R187: a step is the instruction its next event word decodes to, run with that word taken off
the environment's sequence; with no event the core waits unchanged. -/
def Obligations.StepRunsDecodedEvent : Prop :=
  (∀ (s : State) (w : EventWord) (rest : List EventWord), s.pending = w :: rest →
      step s = exec (decode w) { s with pending := rest }) ∧
    (∀ (s : State) (i : Instr) (w : EventWord) (rest : List EventWord), encode i = some w →
      s.pending = w :: rest → step s = exec i { s with pending := rest }) ∧
    (∀ s : State, s.pending = [] → step s = .next s)

/-- R61, R72, R83: the number of a decoded row, placed as the next event, is the row the next step runs, and the
environment's own sequence waits behind it. -/
def Obligations.PlacedWordRunsNext : Prop :=
  ∀ (s : State) (nbits w : Nat) (i : Instr), decodeTableWord nbits w = some i →
    step (s.withFetchWord nbits w) = exec i s

/-- R170, R174: every step, from every state, answers a next state: the core has no fault and no exception. -/
def Obligations.StepAlwaysCompletes : Prop :=
  ∀ s : State, ∃ t, step s = .next t

/-- R101: a DATA event records the level it carries; no other register, no output, nothing else changes. -/
def Obligations.DataEventsLatchLevel : Prop :=
  ∀ s : State, s.cfg.valid = true →
    exec .dataLow s = .next { s with dataLevel := false } ∧
      exec .dataHigh s = .next { s with dataLevel := true }

/-- R75: CLK_FALL is the defined no-op: not reserved, not refused, no effect. -/
def Obligations.ClkFallDoesNothing : Prop :=
  Instr.clkFall.isReserved = false ∧ decode 0b010#3 = .clkFall ∧
    ∀ s : State, s.cfg.valid = true → exec .clkFall s = .next s

/-- R59: DATA_LOW and DATA_HIGH are idempotent, and RESET is but for its fresh draw of DATA_LEVEL_RESET. -/
def Obligations.DataAndResetIdempotent : Prop :=
  ∀ (s t u : State),
    (∀ i, i = .dataLow ∨ i = .dataHigh → exec i s = .next t → exec i t = .next t) ∧
      (exec .reset s = .next t → exec .reset t = .next u →
        u.toRegisters = { t.toRegisters with dataLevel := u.dataLevel } ∧
          u.cfg = t.cfg ∧ u.pending = t.pending ∧ u.out = t.out ∧ u.temps = t.temps)

/-- R74: the three reserved words name no event; delivering one leaves every register but the refusal mark
unchanged, emits nothing and sets the mark. -/
def Obligations.ReservedWordsSetRefusalMark : Prop :=
  decode 0b101#3 = .reserved101 ∧ decode 0b110#3 = .reserved110 ∧ decode 0b111#3 = .reserved111 ∧
    ∀ s : State,
      exec .reserved101 s = .next { s with refusalMark := true } ∧
        exec .reserved110 s = .next { s with refusalMark := true } ∧
        exec .reserved111 s = .next { s with refusalMark := true }

/-- R11, R176: under a configuration with two buttons at one position, or a position above 31, every event is
refused. That a RESET is refused too is the model's reading (log 5). -/
def Obligations.BrokenConfigRefusesEvents : Prop :=
  ∀ (s : State) (i : Instr), i.isEvent = true →
    ((∃ b, 32 ≤ s.cfg.pos b) ∨ (∃ b c, b ≠ c ∧ s.cfg.pos b = s.cfg.pos c)) →
    exec i s = .next { s with refusalMark := true }

/-- R11: a configuration whose six positions are pairwise distinct and in 0..31 passes the check, and only such
a one does. -/
def Obligations.ConfigCheckIsRangeAndDistinct : Prop :=
  ∀ c : Config, c.valid = true ↔
    (∀ b, c.pos b < 32) ∧ ∀ b d, b ≠ d → c.pos b ≠ c.pos d

/-- R176: the refusal mark after an event: set by a refusal, cleared only by RESET, else kept (that a RESET under
a broken configuration is refused is the model's reading, log 5). -/
def Obligations.RefusalMarkClearedOnlyByReset : Prop :=
  ∀ (s t : State) (w : EventWord) (rest : List EventWord), s.pending = w :: rest → step s = .next t →
    (t.refusalMark = true ↔
      s.cfg.valid = false ∨ (decode w).isReserved = true ∨
        (s.refusalMark = true ∧ decode w ≠ .reset))

/-- R200: RESET sets every register to its value of R35, draws DATA_LEVEL_RESET, clears the refusal mark, emits
nothing and does not touch the configuration; a second RESET changes nothing but the draw. -/
def Obligations.ResetEventRestoresRegisters : Prop :=
  ∀ s : State, s.cfg.valid = true →
    exec .reset s = .next
        { s with
          bits := 0x00000000#32, bitIndex := 0#8, oneRunLength := 0#8, synchronized := false
          dataLevel := Config.dataLevelReset s.draws
          prevFrame := 0x00000000#32, lastRecord := none, hapticPos := none, refusalMark := false
          draws := s.draws + 1 } ∧
      ∀ t, exec .reset s = .next t →
        exec .reset t = .next
          { t with dataLevel := Config.dataLevelReset (s.draws + 1), draws := s.draws + 2 }

/-- R35 (decisions D11 to D16): the registers after reset; the level of the data line is some draw of the OPEN
parameter DATA_LEVEL_RESET. -/
def Obligations.ResetStateHasR35Values : Prop :=
  State.reset.bits = 0x00000000#32 ∧ State.reset.bitIndex = 0#8 ∧ State.reset.oneRunLength = 0#8 ∧
    State.reset.synchronized = false ∧ (∃ n, State.reset.dataLevel = Config.dataLevelReset n) ∧
    State.reset.prevFrame = 0x00000000#32 ∧ State.reset.lastRecord = none ∧
    State.reset.hapticPos = none ∧ State.reset.refusalMark = false

/-- R201: the state at power-on is the state after one RESET; the core then waits for the next event. The model's
own fields at reset (a configuration that passes R11's check, no event pending, no output, one draw made, idle
temporaries) are its choice: logs 1 to 4. -/
def Obligations.PowerOnIsOneReset : Prop :=
  State.reset.cfg.valid = true ∧ step State.reset = .next State.reset ∧
    (∀ s : State, s.cfg.valid = true →
      ∃ t, exec .reset s = .next t ∧
        t.toRegisters = { State.reset.toRegisters with dataLevel := t.dataLevel }) ∧
    ∀ s : State, s.cfg = State.reset.cfg → s.pending = [] → s.out = [] →
      s.draws + 1 = State.reset.draws → AtBoundary s → exec .reset s = .next State.reset

/-- R105 (decision D5), R24: the run count after a CLK_RISE, whatever else the step does. -/
def Obligations.RunCountAfterClkRise : Prop :=
  ∀ s t : State, s.cfg.valid = true → exec .clkRise s = .next t →
    t.oneRunLength.toNat = if s.dataLevel then min (s.oneRunLength.toNat + 1) 255 else 0

/-- R105, R106 (decisions D4, D5, D6): the one that brings the run to the threshold, and every further one,
de-synchronises: it is not written, no window is handed off, `bits` is kept, and the count goes on up to 255. -/
def Obligations.ClkRiseGuardDesynchronises : Prop :=
  ∀ s : State, s.cfg.valid = true → s.dataLevel = true → 31 ≤ s.oneRunLength.toNat →
    exec .clkRise s = .next
      { s with
        oneRunLength := BitVec.ofNat 8 (min (s.oneRunLength.toNat + 1) 255)
        synchronized := false, bitIndex := 0#8 }

/-- R105, R108: below the threshold, an unsynchronised assembler only counts a one. -/
def Obligations.ClkRiseUnsynchronisedOneCounts : Prop :=
  ∀ s : State, s.cfg.valid = true → s.dataLevel = true → s.oneRunLength.toNat ≤ 30 →
    s.synchronized = false →
    exec .clkRise s = .next { s with oneRunLength := BitVec.ofNat 8 (s.oneRunLength.toNat + 1) }

/-- R105, R108 (decision D4): below the threshold, a synchronised assembler writes a one into the cell `bitIndex`
names, leaves the other 31 cells alone, and advances; before the last cell nothing is handed off. -/
def Obligations.ClkRiseWritesOne : Prop :=
  ∀ s : State, s.cfg.valid = true → s.dataLevel = true → s.oneRunLength.toNat ≤ 30 →
    s.synchronized = true → s.bitIndex.toNat ≤ 30 →
    ∃ b : Packet, (∀ i, i < 32 → packetBit b i = (if i = s.bitIndex.toNat then true else packetBit s.bits i)) ∧
      exec .clkRise s = .next
        { s with
          bits := b, bitIndex := BitVec.ofNat 8 (s.bitIndex.toNat + 1)
          oneRunLength := BitVec.ofNat 8 (s.oneRunLength.toNat + 1) }

/-- R107, R108 (decision D4): a zero synchronises, whatever the flag was, ends the run, and is itself written at
`bitIndex`, which it does not reset (R115). -/
def Obligations.ClkRiseZeroSynchronisesAndIsWritten : Prop :=
  ∀ s : State, s.cfg.valid = true → s.dataLevel = false → s.bitIndex.toNat ≤ 30 →
    ∃ b : Packet, (∀ i, i < 32 → packetBit b i = (if i = s.bitIndex.toNat then false else packetBit s.bits i)) ∧
      exec .clkRise s = .next
        { s with
          bits := b, bitIndex := BitVec.ofNat 8 (s.bitIndex.toNat + 1)
          synchronized := true, oneRunLength := 0#8 }

/-- R109, R131, R132: a write at position 31 completes the window; one without the marker is dropped: only the
assembler's registers change, nothing is emitted. -/
def Obligations.ClkRiseDropsWindowWithoutMarker : Prop :=
  ∀ (s : State) (raw : Packet), s.cfg.valid = true → s.bitIndex.toNat = 31 → AtBoundary s →
    (s.dataLevel = true → s.synchronized = true ∧ s.oneRunLength.toNat ≤ 30) →
    (∀ i, i < 32 → packetBit raw i = (if i = 31 then s.dataLevel else packetBit s.bits i)) →
    raw &&& 0x1F#32 ≠ 0x16#32 →
    exec .clkRise s = .next
      { s with
        bits := raw, bitIndex := 0#8, synchronized := true
        oneRunLength := if s.dataLevel then BitVec.ofNat 8 (s.oneRunLength.toNat + 1) else 0#8 }

/-- R109, R144: a completed window with the marker runs INTERPRET in the same step: haptic decision, then
de-duplication, then dispatch, with the outputs in that order (decision D19). -/
def Obligations.ClkRiseInterpretsAcceptedWindow : Prop :=
  ∀ (s : State) (raw : Packet) (rec : OutputRecord), s.cfg.valid = true → s.bitIndex.toNat = 31 →
    AtBoundary s →
    (s.dataLevel = true → s.synchronized = true ∧ s.oneRunLength.toNat ≤ 30) →
    (∀ i, i < 32 → packetBit raw i = (if i = 31 then s.dataLevel else packetBit s.bits i)) →
    raw &&& 0x1F#32 = 0x16#32 →
    rec = { slot := decodeButtons s.cfg raw s.prevFrame, wheel := wheelField raw } →
    exec .clkRise s = .next
      { s with
        bits := raw, bitIndex := 0#8, synchronized := true
        oneRunLength := if s.dataLevel then BitVec.ofNat 8 (s.oneRunLength.toNat + 1) else 0#8
        hapticPos :=
          if s.hapticPos ≠ some rec.wheel ∧ rec.wheel.toNat % 2 = 0 then some rec.wheel else s.hapticPos
        prevFrame := if s.lastRecord = some rec then s.prevFrame else raw
        lastRecord := some rec
        out := s.out
          ++ (if s.hapticPos ≠ some rec.wheel ∧ rec.wheel.toNat % 2 = 0 then [.hapticFire] else [])
          ++ (if s.lastRecord = some rec then [] else [recordOutput rec]) }

/-- R110: the handoff clears nothing: the window stays in `bits`, and the assembler stays synchronised, whatever
INTERPRET does with it. -/
def Obligations.HandoffClearsNothing : Prop :=
  ∀ (s t : State), s.cfg.valid = true → s.bitIndex.toNat = 31 →
    (s.dataLevel = true → s.synchronized = true ∧ s.oneRunLength.toNat ≤ 30) →
    exec .clkRise s = .next t →
    (∀ i, i < 32 → packetBit t.bits i = (if i = 31 then s.dataLevel else packetBit s.bits i)) ∧
      t.bitIndex = 0#8 ∧ t.synchronized = true ∧
      t.oneRunLength.toNat = if s.dataLevel then s.oneRunLength.toNat + 1 else 0

/-- R107, R108 (decision D4): a zero synchronises and ends the run in every state, at every position, and at a
position below 32 is itself written: no other cell changes. That no cell changes at a position of 32 or above, which
no run reaches, is the model's choice (log 6), not the spec's. -/
def Obligations.ZeroSampleSynchronisesAnywhere : Prop :=
  ∀ s : State, s.cfg.valid = true → s.dataLevel = false →
    ∃ t, exec .clkRise s = .next t ∧ t.synchronized = true ∧ t.oneRunLength = 0#8 ∧
      ∀ i, i < 32 → packetBit t.bits i = if i = s.bitIndex.toNat then false else packetBit s.bits i

/-- R108, R53, R115: a CLK_RISE that leaves the assembler synchronised has written the sample at `bitIndex`, left
the other 31 cells alone and advanced the position by one modulo 32, so that a zero in a synchronised assembler
does not move the lock phase; one that leaves it unsynchronised has written nothing and stands at position 0. -/
def Obligations.ClkRiseWritesExactlyWhileSynchronised : Prop :=
  ∀ s t : State, Inv s → s.cfg.valid = true → exec .clkRise s = .next t →
    (t.synchronized = true →
      (∀ i, i < 32 →
          packetBit t.bits i = if i = s.bitIndex.toNat then s.dataLevel else packetBit s.bits i) ∧
        t.bitIndex.toNat = (s.bitIndex.toNat + 1) % 32) ∧
      (t.synchronized = false → t.bits = s.bits ∧ t.bitIndex = 0#8)

/-- R77, R132 (decision D7): VALIDATE lets INTERPRET go on exactly when the marker matches, that is, when the first
five samples of the window are 0, 1, 1, 0, 1, and changes no register. -/
def Obligations.ValidateTestsFirstFiveSamples : Prop :=
  ∀ (raw : Packet) (s : State),
    ∃ b : Bool, exec (.validate raw) s = .next { s with temps := { s.temps with returned := b } } ∧
      (b = false ↔ raw &&& 0x1F#32 = 0x16#32) ∧
      (b = false ↔ packetBit raw 0 = false ∧ packetBit raw 1 = true ∧ packetBit raw 2 = true ∧
        packetBit raw 3 = false ∧ packetBit raw 4 = true)

/-- R133, R134, R135: the slot is NONE exactly when no button bit differs from `prevFrame`; of several changed
buttons, the last in the order Center, Left, Right, Up, Down, WheelTouch is the one in the slot, with its bit index
(decision D8) and its new bit. No register changes. -/
def Obligations.ButtonDecodeReportsLastChange : Prop :=
  ∀ (raw : Packet) (s : State),
    ∃ slot, exec (.buttonDecode raw) s = .next { s with temps := { s.temps with slot := slot } } ∧
      (slot = none ↔ ∀ b, packetBit raw (s.cfg.pos b) = packetBit s.prevFrame (s.cfg.pos b)) ∧
      ∀ (before after : List ButtonId) (b : ButtonId),
        [ButtonId.center, .left, .right, .up, .down, .wheelTouch] = before ++ b :: after →
        packetBit raw (s.cfg.pos b) ≠ packetBit s.prevFrame (s.cfg.pos b) →
        (∀ c ∈ after, packetBit raw (s.cfg.pos c) = packetBit s.prevFrame (s.cfg.pos c)) →
        ∃ t : Transition, slot = some t ∧ t.id.toNat = s.cfg.pos b ∧
          t.pressed = packetBit raw (s.cfg.pos b)

/-- R78, R136 (decision D9): the wheel is the unsigned number of bits 23..16, bit 16 least significant. -/
def Obligations.WheelExtractSumsBits16To23 : Prop :=
  ∀ (raw : Packet) (s : State),
    ∃ w : Byte, exec (.wheelExtract raw) s = .next { s with temps := { s.temps with wheel := w } } ∧
      w.toNat = ((List.range 8).map fun k => (packetBit raw (16 + k)).toNat * 2 ^ k).sum

/-- R137 (decision D12): an even position other than the last evaluated one, or the first one, is remembered and
fires; any other position changes nothing. -/
def Obligations.HapticDecideFiresOnNewEven : Prop :=
  ∀ (wheel : Byte) (s : State),
    (wheel.toNat % 2 = 0 → s.hapticPos ≠ some wheel →
      exec (.hapticDecide wheel) s = .next
        { s with hapticPos := some wheel, out := s.out ++ [.hapticFire] }) ∧
      (wheel.toNat % 2 = 1 ∨ s.hapticPos = some wheel → exec (.hapticDecide wheel) s = .next s)

/-- R146 (decisions D11, D28): DEDUP ends INTERPRET exactly when the record is the last one dispatched, by its
fields or by its three bytes alike; with no record dispatched yet it never does. It changes no register. -/
def Obligations.DedupComparesWithLastRecord : Prop :=
  ∀ (rec : OutputRecord) (s : State),
    ∃ b : Bool, exec (.dedup rec) s = .next { s with temps := { s.temps with returned := b } } ∧
      (b = true ↔ s.lastRecord = some rec) ∧
      (b = true ↔ s.lastRecord.map recordOutput = some (recordOutput rec))

/-- R142, R81: DISPATCH remembers the whole packet and the record, and emits the record's three bytes. -/
def Obligations.DispatchRemembersAndEmits : Prop :=
  ∀ (raw : Packet) (wheel : Byte) (s : State),
    exec (.dispatch { slot := none, wheel := wheel } raw) s = .next
        { s with
          prevFrame := raw, lastRecord := some { slot := none, wheel := wheel }
          out := s.out ++ [.record 0xFF#8 0x00#8 wheel] } ∧
      ∀ (id : BitVec 5) (p : Bool),
        exec (.dispatch { slot := some { id := id, pressed := p }, wheel := wheel } raw) s = .next
          { s with
            prevFrame := raw
            lastRecord := some { slot := some { id := id, pressed := p }, wheel := wheel }
            out := s.out ++ [.record (BitVec.ofNat 8 id.toNat) (BitVec.ofNat 8 p.toNat) wheel] }

/-- R82: the byte encoding of records is injective, and so is the 24-bit view of R56. -/
def Obligations.RecordEncodingInjective : Prop :=
  ∀ r q : OutputRecord,
    (recordOutput r = recordOutput q → r = q) ∧ (recordWord24 r = recordWord24 q → r = q)

/-- R34: the seven invariants hold after every step from every state in which they hold. -/
def Obligations.StepKeepsInvariants : Prop :=
  ∀ s t : State, Inv s → step s = .next t → Inv t

/-- R34, R35: the seven invariants hold after reset. -/
def Obligations.ResetMeetsInvariants : Prop := Inv State.reset

/-- R21, R133: INTERPRET's temporaries are idle after reset and after every step from a state in which they are:
at every step boundary the state is R21's tuple, the refusal mark, and the model's own fields (log 3). -/
def Obligations.TemporariesIdleAtStepBoundaries : Prop :=
  AtBoundary State.reset ∧ ∀ s t : State, AtBoundary s → step s = .next t → AtBoundary t

/-- R145: a candidate record that carries a button transition is never suppressed. -/
def Obligations.TransitionIsNeverSuppressed : Prop :=
  ∀ (s t u : State) (raw : Packet) (tr : Transition) (wheel : Byte), Inv s →
    exec (.buttonDecode raw) s = .next t → t.temps.slot = some tr →
    exec (.dedup { slot := some tr, wheel := wheel }) t = .next u → u.temps.returned = false

/-- R62, R143, R148: a step emits nothing, or one RECORD, or a HAPTIC_FIRE and then a RECORD; and only a CLK_RISE
emits anything. -/
def Obligations.StepOutputsHapticOnlyBeforeRecord : Prop :=
  ∀ s t : State, Inv s → step s = .next t →
    ∃ os, t.out = s.out ++ os ∧
      (os ≠ [] → ∃ rest, s.pending = 0b011#3 :: rest) ∧
      (os = [] ∨ ∃ r, os = [recordOutput r] ∨ os = [.hapticFire, recordOutput r])

/-- R63 (a): a RECORD is never equal to the RECORD before it, back to the last RESET: what the core remembers as
its last record stays the last RECORD it emitted, and every RECORD of a step differs from that one. -/
def Obligations.ConsecutiveRecordsDiffer : Prop :=
  TraceAgrees State.reset ∧
    ∀ s t : State, TraceAgrees s → step s = .next t →
      TraceAgrees t ∧
        ∃ os, t.out = s.out ++ os ∧
          ∀ o ∈ os, isRecord o = true → s.lastRecord ≠ none → lastRecordOf s.out ≠ some o

/-- R82: byte 0 of every RECORD is the sentinel or one of the six positions, byte 1 is 0 or 1. -/
def Obligations.EmittedRecordsAreLegal : Prop :=
  ∀ s t : State, step s = .next t →
    ∃ os, t.out = s.out ++ os ∧ ∀ o ∈ os, legalOutput s.cfg o = true

/-- R32, R61, R66: no step changes the configuration, takes back an output, or touches an event beyond the one it
delivers. -/
def Obligations.StepKeepsConfigAndHistory : Prop :=
  ∀ s t : State, step s = .next t →
    t.cfg = s.cfg ∧ s.out <+: t.out ∧ t.pending = s.pending.tail

/-- R21, R22, R24, R26: the writers of each register among the events. -/
def Obligations.RegistersWrittenOnlyByTheirEvents : Prop :=
  ∀ (i : Instr) (s t : State), i.isEvent = true → exec i s = .next t →
    (i ≠ .clkRise → i ≠ .reset →
      t.bits = s.bits ∧ t.bitIndex = s.bitIndex ∧ t.oneRunLength = s.oneRunLength ∧
        t.synchronized = s.synchronized ∧ t.prevFrame = s.prevFrame ∧ t.lastRecord = s.lastRecord ∧
        t.hapticPos = s.hapticPos) ∧
      (i ≠ .dataLow → i ≠ .dataHigh → i ≠ .reset → t.dataLevel = s.dataLevel) ∧
      (i ≠ .clkRise → t.out = s.out) ∧ (i ≠ .reset → t.draws = s.draws)

/-- R27, R28, R57: a CLK_RISE writes `prevFrame` and `lastRecord` together, with the window just completed and the
record it emits last, or writes neither and emits no RECORD. -/
def Obligations.FrameAndRecordWrittenTogether : Prop :=
  ∀ s t : State, exec .clkRise s = .next t →
    (t.prevFrame = s.prevFrame ∧ t.lastRecord = s.lastRecord ∧
        ∀ os, t.out = s.out ++ os → ∀ o ∈ os, isRecord o = false) ∨
      (t.prevFrame = t.bits ∧ t.bits &&& 0x1F#32 = 0x16#32 ∧ t.bitIndex = 0#8 ∧
        ∃ r, t.lastRecord = some r ∧ s.lastRecord ≠ some r ∧ r.wheel = wheelField t.bits ∧
          t.out.getLast? = some (recordOutput r))

/-- R17: the registers after an event and its outputs are functions of the registers before it, the event and the
configuration, and for RESET of the draw: nothing else of the state is read. -/
def Obligations.StepReadsOnlyRegistersAndConfig : Prop :=
  ∀ (i : Instr) (s s' t t' : State), i.isEvent = true →
    s'.toRegisters = s.toRegisters → s'.cfg = s.cfg → s'.draws = s.draws →
    exec i s = .next t → exec i s' = .next t' →
    t'.toRegisters = t.toRegisters ∧ ∃ os, t.out = s.out ++ os ∧ t'.out = s'.out ++ os

/-- R36, R112: the cells of `bits` at `bitIndex` and above are stale: two states that differ only there stay so
under every event, with the same outputs. -/
def Obligations.StaleAccumulatorCellsUnobservable : Prop :=
  ∀ (i : Instr) (s t : State) (b : Packet), i.isEvent = true → s.bitIndex.toNat < 32 →
    (s.synchronized = false → s.bitIndex = 0#8) →
    (∀ k, k < s.bitIndex.toNat → packetBit b k = packetBit s.bits k) →
    exec i s = .next t →
    ∃ b' : Packet, exec i { s with bits := b } = .next { t with bits := b' } ∧
      ∀ k, k < t.bitIndex.toNat → packetBit b' k = packetBit t.bits k

/-- R147: two states whose `prevFrame`s agree at the six button positions stay so under every event, with the
same outputs: whether a suppressed frame is written into `prevFrame` cannot be observed. -/
def Obligations.PrevFrameReadOnlyAtButtonPositions : Prop :=
  ∀ (i : Instr) (s t : State) (f : Packet), i.isEvent = true →
    (∀ k, packetBit f (s.cfg.pos k) = packetBit s.prevFrame (s.cfg.pos k)) →
    exec i s = .next t →
    ∃ f' : Packet, exec i { s with prevFrame := f } = .next { t with prevFrame := f' } ∧
      ∀ k, packetBit f' (t.cfg.pos k) = packetBit t.prevFrame (t.cfg.pos k)

/-- R114: the count at or above the threshold is unobservable: two unsynchronised states that differ only in
such a count stay so, or become equal, under every event, with the same outputs. -/
def Obligations.RunCountAboveThresholdUnobservable : Prop :=
  ∀ (i : Instr) (s t : State) (c : Byte), i.isEvent = true → s.synchronized = false →
    32 ≤ s.oneRunLength.toNat → 32 ≤ c.toNat → exec i s = .next t →
    ∃ c' : Byte, exec i { s with oneRunLength := c } = .next { t with oneRunLength := c' } ∧
      (c' = t.oneRunLength ∨
        t.synchronized = false ∧ 32 ≤ t.oneRunLength.toNat ∧ 32 ≤ c'.toNat)

/-- R80: two packets that agree in the marker bits, the wheel field and the six button positions give the same
outputs, the same record memory and the same haptic memory. -/
def Obligations.UnassignedPacketBitsIgnored : Prop :=
  ∀ (s : State) (raw raw' : Packet), sameFields s.cfg raw raw' →
    (interpret raw' s).out = (interpret raw s).out ∧
      (interpret raw' s).lastRecord = (interpret raw s).lastRecord ∧
      (interpret raw' s).hapticPos = (interpret raw s).hapticPos

/-- R141: for accepted packets with the wheel positions 2, 3, 4 the pulse fires on the first and the third, and
with 2, 2, 4 likewise, from every state whose last evaluated position is not 2. -/
def Obligations.HapticHalving : Prop :=
  ∀ (s : State) (p q r : Packet), s.hapticPos ≠ some 2#8 →
    markerMatches p = true → markerMatches q = true → markerMatches r = true →
    wheelField p = 2#8 → (wheelField q = 3#8 ∨ wheelField q = 2#8) → wheelField r = 4#8 →
    let a := interpret p s
    let b := interpret q a
    let c := interpret r b
    a.out.count .hapticFire = s.out.count .hapticFire + 1 ∧
      b.out.count .hapticFire = a.out.count .hapticFire ∧
      c.out.count .hapticFire = b.out.count .hapticFire + 1

/-- R149: from a frame with Center released to one with Center pressed, all else equal, exactly one RECORD results,
(7, 1, wheel). -/
def Obligations.CenterPressGivesOneRecord : Prop :=
  ∀ (s : State) (raw : Packet), Inv s → s.cfg.valid = true → markerMatches raw = true →
    packetBit s.prevFrame 7 = false → packetBit raw 7 = true →
    (∀ i, i < 32 → i ≠ 7 → packetBit raw i = packetBit s.prevFrame i) →
    ∃ os, (interpret raw s).out = s.out ++ os ∧
      os.filter isRecord = [.record 0x07#8 0x01#8 (wheelField raw)]

/-- R150: a frame interpreted twice in a row: without a button transition the repeat emits nothing; with one, the
repeat emits exactly the record (0xFF, 0x00, wheel), because the first has moved `prevFrame`. -/
def Obligations.RepeatedFrameOutputs : Prop :=
  ∀ (s : State) (raw : Packet), Inv s → markerMatches raw = true →
    ((∀ b, packetBit raw (s.cfg.pos b) = packetBit s.prevFrame (s.cfg.pos b)) →
      (interpret raw (interpret raw s)).out = (interpret raw s).out) ∧
      ((∃ b, packetBit raw (s.cfg.pos b) ≠ packetBit s.prevFrame (s.cfg.pos b)) →
        (interpret raw (interpret raw s)).out =
          (interpret raw s).out ++ [.record 0xFF#8 0x00#8 (wheelField raw)])

/-- R61: the state after a sequence of events is the left fold of the step over it: as many steps as there are
words, from the state in which they are the environment's next events, deliver them one after the other, and
always to a next state. -/
def Obligations.StepsAreFoldOverEvents : Prop :=
  ∀ (ws : List EventWord) (s : State),
    steps ws.length { s with pending := ws ++ s.pending } = deliver ws s ∧
      ∃ t, deliver ws s = .next t ∧ t.pending = s.pending

/-- R118: from every state, 32 or more ones de-synchronise the assembler, and a zero then locks it at bit 0. -/
def Obligations.RunOfOnesResynchronises : Prop :=
  ∀ (s : State) (n : Nat), s.cfg.valid = true → 32 ≤ n →
    (∃ t, deliver (scriptOnes n) s = .next t ∧
      t.synchronized = false ∧ t.bitIndex = 0#8 ∧ 32 ≤ t.oneRunLength.toNat) ∧
    ∃ t, deliver (scriptOnes n ++ scriptBit false) s = .next t ∧
      t.synchronized = true ∧ t.oneRunLength = 0#8 ∧ packetBit t.bits 0 = false ∧ t.bitIndex = 1#8

/-- R85: ALIGN leaves the assembler synchronised at bit 0 with no run counted, from every state. -/
def Obligations.AlignSynchronisesFromEveryState : Prop :=
  ∀ s : State, s.cfg.valid = true →
    ∃ t, deliver scriptAlign s = .next t ∧
      t.synchronized = true ∧ t.bitIndex = 0#8 ∧ t.oneRunLength = 0#8

/-- R117: a packet with the marker, delivered bit by bit to an assembler at position 0, is assembled exactly and
handed to INTERPRET once. -/
def Obligations.FramedPacketAssembledExactly : Prop :=
  ∀ (s : State) (v : Packet), s.cfg.valid = true → s.bitIndex = 0#8 → markerMatches v = true →
    ∃ t, deliver (scriptPkt v) s = .next t ∧ t.bits = v ∧ t.bitIndex = 0#8 ∧ t.synchronized = true ∧
      t.out = (interpret v s).out ∧ t.prevFrame = (interpret v s).prevFrame ∧
      t.lastRecord = (interpret v s).lastRecord ∧ t.hapticPos = (interpret v s).hapticPos

/-- R151: the end-to-end scenario, from the interpreter registers of reset. R151 names no premise on the five OPEN
positions; the model states the one it needs, that no other button lies on a set bit of the packet (log 7). -/
def Obligations.EndToEndCenterPress : Prop :=
  ∀ s : State, s.cfg.valid = true → s.bitIndex = 0#8 → s.prevFrame = 0x00000000#32 → s.lastRecord = none →
    s.hapticPos = none →
    (∀ b, b ≠ .center → s.cfg.pos b ≠ 1 ∧ s.cfg.pos b ≠ 2 ∧ s.cfg.pos b ≠ 4 ∧ s.cfg.pos b ≠ 18) →
    ∃ t, deliver (scriptPkt 0x00040096#32) s = .next t ∧
      t.out = s.out ++ [.hapticFire, .record 0x07#8 0x01#8 0x04#8] ∧ t.prevFrame = 0x00040096#32 ∧
      t.hapticPos = some 4#8
end

