-- ==== Sys2Proof/Laws/State.lean ====
section
/-!
SUPPORT. One lemma per field per update of the state, each true by rfl: a proof reads a field of an updated
state through these and never unfolds the update.
-/

namespace Sys2Proof.Machine

variable (s : State) (r : Registers)

@[simp] theorem State.onRegs_toRegisters (f : Registers → Registers) : (s.onRegs f).toRegisters = f s.toRegisters := rfl
@[simp] theorem State.onRegs_cfg (f : Registers → Registers) : (s.onRegs f).cfg = s.cfg := rfl
@[simp] theorem State.onRegs_pending (f : Registers → Registers) : (s.onRegs f).pending = s.pending := rfl
@[simp] theorem State.onRegs_out (f : Registers → Registers) : (s.onRegs f).out = s.out := rfl
@[simp] theorem State.onRegs_draws (f : Registers → Registers) : (s.onRegs f).draws = s.draws := rfl
@[simp] theorem State.onRegs_temps (f : Registers → Registers) : (s.onRegs f).temps = s.temps := rfl

@[simp] theorem State.emit_toRegisters (o : Output) : (s.emit o).toRegisters = s.toRegisters := rfl
@[simp] theorem State.emit_cfg (o : Output) : (s.emit o).cfg = s.cfg := rfl
@[simp] theorem State.emit_pending (o : Output) : (s.emit o).pending = s.pending := rfl
@[simp] theorem State.emit_out (o : Output) : (s.emit o).out = s.out ++ [o] := rfl
@[simp] theorem State.emit_draws (o : Output) : (s.emit o).draws = s.draws := rfl
@[simp] theorem State.emit_temps (o : Output) : (s.emit o).temps = s.temps := rfl

@[simp] theorem State.onTemps_toRegisters (f : Temps → Temps) : (s.onTemps f).toRegisters = s.toRegisters := rfl
@[simp] theorem State.onTemps_cfg (f : Temps → Temps) : (s.onTemps f).cfg = s.cfg := rfl
@[simp] theorem State.onTemps_pending (f : Temps → Temps) : (s.onTemps f).pending = s.pending := rfl
@[simp] theorem State.onTemps_out (f : Temps → Temps) : (s.onTemps f).out = s.out := rfl
@[simp] theorem State.onTemps_draws (f : Temps → Temps) : (s.onTemps f).draws = s.draws := rfl
@[simp] theorem State.onTemps_temps (f : Temps → Temps) : (s.onTemps f).temps = f s.temps := rfl

@[simp] theorem State.clearTemps_toRegisters : (s.clearTemps).toRegisters = s.toRegisters := rfl
@[simp] theorem State.clearTemps_cfg : (s.clearTemps).cfg = s.cfg := rfl
@[simp] theorem State.clearTemps_pending : (s.clearTemps).pending = s.pending := rfl
@[simp] theorem State.clearTemps_out : (s.clearTemps).out = s.out := rfl
@[simp] theorem State.clearTemps_draws : (s.clearTemps).draws = s.draws := rfl
@[simp] theorem State.clearTemps_temps : (s.clearTemps).temps = Temps.idle := rfl

@[simp] theorem State.refuse_toRegisters : (s.refuse).toRegisters = { s.toRegisters with refusalMark := true } := rfl
@[simp] theorem State.refuse_cfg : (s.refuse).cfg = s.cfg := rfl
@[simp] theorem State.refuse_pending : (s.refuse).pending = s.pending := rfl
@[simp] theorem State.refuse_out : (s.refuse).out = s.out := rfl
@[simp] theorem State.refuse_draws : (s.refuse).draws = s.draws := rfl
@[simp] theorem State.refuse_temps : (s.refuse).temps = s.temps := rfl

@[simp] theorem resetEvent_toRegisters : (resetEvent s).toRegisters = Registers.afterReset (Config.dataLevelReset s.draws) := rfl
@[simp] theorem resetEvent_cfg : (resetEvent s).cfg = s.cfg := rfl
@[simp] theorem resetEvent_pending : (resetEvent s).pending = s.pending := rfl
@[simp] theorem resetEvent_out : (resetEvent s).out = s.out := rfl
@[simp] theorem resetEvent_draws : (resetEvent s).draws = s.draws + 1 := rfl
@[simp] theorem resetEvent_temps : (resetEvent s).temps = s.temps := rfl

@[simp] theorem Registers.setDataLevel_bits (b : Bool) : (r.setDataLevel b).bits = r.bits := rfl
@[simp] theorem Registers.setDataLevel_bitIndex (b : Bool) : (r.setDataLevel b).bitIndex = r.bitIndex := rfl
@[simp] theorem Registers.setDataLevel_oneRunLength (b : Bool) : (r.setDataLevel b).oneRunLength = r.oneRunLength := rfl
@[simp] theorem Registers.setDataLevel_synchronized (b : Bool) : (r.setDataLevel b).synchronized = r.synchronized := rfl
@[simp] theorem Registers.setDataLevel_dataLevel (b : Bool) : (r.setDataLevel b).dataLevel = b := rfl
@[simp] theorem Registers.setDataLevel_prevFrame (b : Bool) : (r.setDataLevel b).prevFrame = r.prevFrame := rfl
@[simp] theorem Registers.setDataLevel_lastRecord (b : Bool) : (r.setDataLevel b).lastRecord = r.lastRecord := rfl
@[simp] theorem Registers.setDataLevel_hapticPos (b : Bool) : (r.setDataLevel b).hapticPos = r.hapticPos := rfl
@[simp] theorem Registers.setDataLevel_refusalMark (b : Bool) : (r.setDataLevel b).refusalMark = r.refusalMark := rfl

@[simp] theorem Registers.writeSample_bits (b : Bool) : (r.writeSample b).bits = setPacketBit r.bits r.bitIndex.toNat b := rfl
@[simp] theorem Registers.writeSample_bitIndex (b : Bool) : (r.writeSample b).bitIndex = r.bitIndex + 1#8 := rfl
@[simp] theorem Registers.writeSample_oneRunLength (b : Bool) : (r.writeSample b).oneRunLength = r.oneRunLength := rfl
@[simp] theorem Registers.writeSample_synchronized (b : Bool) : (r.writeSample b).synchronized = r.synchronized := rfl
@[simp] theorem Registers.writeSample_dataLevel (b : Bool) : (r.writeSample b).dataLevel = r.dataLevel := rfl
@[simp] theorem Registers.writeSample_prevFrame (b : Bool) : (r.writeSample b).prevFrame = r.prevFrame := rfl
@[simp] theorem Registers.writeSample_lastRecord (b : Bool) : (r.writeSample b).lastRecord = r.lastRecord := rfl
@[simp] theorem Registers.writeSample_hapticPos (b : Bool) : (r.writeSample b).hapticPos = r.hapticPos := rfl
@[simp] theorem Registers.writeSample_refusalMark (b : Bool) : (r.writeSample b).refusalMark = r.refusalMark := rfl

@[simp] theorem Registers.rewind_bits : (r.rewind).bits = r.bits := rfl
@[simp] theorem Registers.rewind_bitIndex : (r.rewind).bitIndex = 0#8 := rfl
@[simp] theorem Registers.rewind_oneRunLength : (r.rewind).oneRunLength = r.oneRunLength := rfl
@[simp] theorem Registers.rewind_synchronized : (r.rewind).synchronized = r.synchronized := rfl
@[simp] theorem Registers.rewind_dataLevel : (r.rewind).dataLevel = r.dataLevel := rfl
@[simp] theorem Registers.rewind_prevFrame : (r.rewind).prevFrame = r.prevFrame := rfl
@[simp] theorem Registers.rewind_lastRecord : (r.rewind).lastRecord = r.lastRecord := rfl
@[simp] theorem Registers.rewind_hapticPos : (r.rewind).hapticPos = r.hapticPos := rfl
@[simp] theorem Registers.rewind_refusalMark : (r.rewind).refusalMark = r.refusalMark := rfl

@[simp] theorem Registers.countOne_bits : (r.countOne).bits = r.bits := rfl
@[simp] theorem Registers.countOne_bitIndex : (r.countOne).bitIndex = r.bitIndex := rfl
@[simp] theorem Registers.countOne_oneRunLength : (r.countOne).oneRunLength = saturatingSucc r.oneRunLength := rfl
@[simp] theorem Registers.countOne_synchronized : (r.countOne).synchronized = r.synchronized := rfl
@[simp] theorem Registers.countOne_dataLevel : (r.countOne).dataLevel = r.dataLevel := rfl
@[simp] theorem Registers.countOne_prevFrame : (r.countOne).prevFrame = r.prevFrame := rfl
@[simp] theorem Registers.countOne_lastRecord : (r.countOne).lastRecord = r.lastRecord := rfl
@[simp] theorem Registers.countOne_hapticPos : (r.countOne).hapticPos = r.hapticPos := rfl
@[simp] theorem Registers.countOne_refusalMark : (r.countOne).refusalMark = r.refusalMark := rfl

@[simp] theorem Registers.resync_bits : (r.resync).bits = r.bits := rfl
@[simp] theorem Registers.resync_bitIndex : (r.resync).bitIndex = r.bitIndex := rfl
@[simp] theorem Registers.resync_oneRunLength : (r.resync).oneRunLength = 0#8 := rfl
@[simp] theorem Registers.resync_synchronized : (r.resync).synchronized = true := rfl
@[simp] theorem Registers.resync_dataLevel : (r.resync).dataLevel = r.dataLevel := rfl
@[simp] theorem Registers.resync_prevFrame : (r.resync).prevFrame = r.prevFrame := rfl
@[simp] theorem Registers.resync_lastRecord : (r.resync).lastRecord = r.lastRecord := rfl
@[simp] theorem Registers.resync_hapticPos : (r.resync).hapticPos = r.hapticPos := rfl
@[simp] theorem Registers.resync_refusalMark : (r.resync).refusalMark = r.refusalMark := rfl

end Sys2Proof.Machine
end

