-- ==== Sys2Proof/Laws/Flags.lean ====
section
/-!
SUPPORT. The synchronisation part of a CLK_RISE (40_assembler.md rules R105 to R107), said once.
-/

namespace Sys2Proof.Machine

/-- The saturating increment as arithmetic (R105, R114). -/
theorem saturatingSucc_toNat (c : Byte) : (saturatingSucc c).toNat = min (c.toNat + 1) 255 := by
  unfold saturatingSucc runSaturation
  have hc := c.isLt
  split
  · subst c; rfl
  · next h =>
    have : c.toNat ≠ 255 := fun h' => h (BitVec.eq_of_toNat_eq h')
    rw [BitVec.toNat_add]
    simp only [BitVec.toNat_ofNat, Nat.reducePow, Nat.reduceMod]
    omega

/-- The guard's test after an increment (R105, R106). -/
theorem runReached_succ (c : Byte) : runReached (saturatingSucc c) = decide (31 ≤ c.toNat) := by
  have := saturatingSucc_toNat c
  exact decide_eq_decide.mpr (by unfold runThreshold; omega)

/-- A zero re-synchronises (R107). -/
@[simp] theorem Registers.updateSync_zero (r : Registers) : r.updateSync false = r.resync := rfl

/-- A one below the threshold only counts (R105). -/
theorem Registers.updateSync_one_below {r : Registers} (h : r.oneRunLength.toNat ≤ 30) :
    r.updateSync true = r.countOne := by
  have : ¬ 31 ≤ r.oneRunLength.toNat := by omega
  simp [updateSync, guardRun, runReached_succ, this]

/-- A one that reaches the threshold, or comes after it, de-synchronises (R106). -/
theorem Registers.updateSync_one_above {r : Registers} (h : 31 ≤ r.oneRunLength.toNat) :
    r.updateSync true =
      { r with
        oneRunLength := saturatingSucc r.oneRunLength, synchronized := false, bitIndex := 0#8 } := by
  simp [updateSync, guardRun, runReached_succ, h]

/-- Everything the synchronisation part can do, and what it leaves alone. -/
theorem Registers.updateSync_cases (sample : Bool) (r : Registers) :
    (sample = false ∧ r.updateSync sample = r.resync) ∨
      (sample = true ∧ r.oneRunLength.toNat ≤ 30 ∧ r.updateSync sample = r.countOne) ∨
      (sample = true ∧ 31 ≤ r.oneRunLength.toNat ∧
        r.updateSync sample =
          { r with
            oneRunLength := saturatingSucc r.oneRunLength, synchronized := false, bitIndex := 0#8 }) := by
  cases sample
  · exact .inl ⟨rfl, rfl⟩
  · by_cases h : r.oneRunLength.toNat ≤ 30
    · exact .inr (.inl ⟨rfl, h, updateSync_one_below h⟩)
    · exact .inr (.inr ⟨rfl, by omega, updateSync_one_above (by omega)⟩)

end Sys2Proof.Machine
end

