-- ==== Sys2Proof/Laws/Operands.lean ====
section
/-!
SUPPORT. What the operand forms of Machine/Operands.lean compute: one cell of a packet, the marker, the wheel
field, the button slot, the record bytes.
-/

namespace Sys2Proof.Machine

/-- One written cell, and the other 31 unchanged (R14). -/
theorem packetBit_setPacketBit (v : Packet) (i : Nat) (b : Bool) {j : Nat} (hj : j < 32) :
    packetBit (setPacketBit v i b) j = if j = i then b else packetBit v j := by
  unfold packetBit setPacketBit
  by_cases h : j = i
  · subst h
    cases b <;> simp [hj]
  · cases b <;> simp [hj, h]

/-- A packet is its 32 cells. -/
theorem packet_ext {a b : Packet} (h : ∀ i, i < 32 → packetBit a i = packetBit b i) : a = b :=
  BitVec.eq_of_getLsbD_eq fun i hi => h i hi

/-- There is no cell at 32 or above (R50). -/
theorem setPacketBit_of_ge (v : Packet) {i : Nat} (hi : 32 ≤ i) (b : Bool) : setPacketBit v i b = v :=
  packet_ext fun j hj => (packetBit_setPacketBit v i b hj).trans (if_neg (by omega))

/-- No cell above bit 31 is set. -/
theorem packetBit_of_ge (v : Packet) {i : Nat} (hi : 32 ≤ i) : packetBit v i = false :=
  BitVec.getLsbD_of_ge v i hi

/-- The packet that a completing write leaves, cell by cell. -/
theorem setPacketBit_eq_iff (v raw : Packet) (k : Nat) (b : Bool) :
    setPacketBit v k b = raw ↔
      ∀ i, i < 32 → packetBit raw i = if i = k then b else packetBit v i := by
  constructor
  · rintro rfl i hi
    exact packetBit_setPacketBit v k b hi
  · intro h
    exact packet_ext fun i hi => (packetBit_setPacketBit v k b hi).trans (h i hi).symm

/-- The marker check as an equation on packets (R77). -/
theorem markerMatches_iff (raw : Packet) : markerMatches raw = true ↔ raw &&& 0x1F#32 = 0x16#32 := by
  simp [markerMatches, markerMask, markerValue]

/-- The parity test as arithmetic (R78). -/
theorem wheelEven_iff (w : Byte) : wheelEven w = true ↔ w.toNat % 2 = 0 := by
  simp [wheelEven, BitVec.getLsbD, Nat.testBit_zero]

/-- Cell `k` of the wheel field is packet bit `16 + k` (R78). -/
theorem wheelField_getLsbD (raw : Packet) {k : Nat} (hk : k < 8) :
    (wheelField raw).getLsbD k = packetBit raw (16 + k) := by
  simp [wheelField, wheelOffset, packetBit, hk]

/-- An iteration of BUTTON_DECODE on an unchanged button (R133). -/
theorem decodeButton_same {c : Config} {raw prev : Packet} {b : ButtonId} (slot : Option Transition)
    (h : packetBit raw (c.pos b) = packetBit prev (c.pos b)) : decodeButton c raw prev slot b = slot := by
  simp [decodeButton, h]

/-- An iteration of BUTTON_DECODE on a changed button (R133). -/
theorem decodeButton_changed {c : Config} {raw prev : Packet} {b : ButtonId} (slot : Option Transition)
    (h : packetBit raw (c.pos b) ≠ packetBit prev (c.pos b)) :
    decodeButton c raw prev slot b =
      some { id := BitVec.ofNat 5 (c.pos b), pressed := packetBit raw (c.pos b) } := by
  simp [decodeButton, h]

/-- A changed button has a position that is a packet bit, so its identifier loses nothing. -/
theorem id_of_changed {raw prev : Packet} {p : Nat} (h : packetBit raw p ≠ packetBit prev p) :
    (BitVec.ofNat 5 p).toNat = p := by
  have hp : p < 32 := by
    by_contra hge
    exact h ((packetBit_of_ge raw (by omega)).trans (packetBit_of_ge prev (by omega)).symm)
  simp [Nat.mod_eq_of_lt hp]

/-- Iterations over unchanged buttons keep the slot. -/
theorem foldl_decodeButton_same {c : Config} {raw prev : Packet} (bs : List ButtonId) (slot : Option Transition)
    (h : ∀ b ∈ bs, packetBit raw (c.pos b) = packetBit prev (c.pos b)) :
    bs.foldl (decodeButton c raw prev) slot = slot := by
  induction bs generalizing slot with
  | nil => rfl
  | cons b bs ih =>
    rw [List.foldl_cons, decodeButton_same slot (h b (by simp)), ih slot fun d hd => h d (by simp [hd])]

/-- What every slot that comes out of the loop says (R133): it is the one it started with, or a changed
button's position and new bit. -/
theorem foldl_decodeButton_cases {c : Config} {raw prev : Packet} (bs : List ButtonId)
    (slot : Option Transition) :
    bs.foldl (decodeButton c raw prev) slot = slot ∨
      ∃ b ∈ bs, packetBit raw (c.pos b) ≠ packetBit prev (c.pos b) ∧
        bs.foldl (decodeButton c raw prev) slot =
          some { id := BitVec.ofNat 5 (c.pos b), pressed := packetBit raw (c.pos b) } := by
  induction bs generalizing slot with
  | nil => exact .inl rfl
  | cons b bs ih =>
    rw [List.foldl_cons]
    rcases ih (decodeButton c raw prev slot b) with h | ⟨d, hd, hne, h⟩
    · by_cases hb : packetBit raw (c.pos b) = packetBit prev (c.pos b)
      · exact .inl (h.trans (decodeButton_same slot hb))
      · exact .inr ⟨b, by simp, hb, h.trans (decodeButton_changed slot hb)⟩
    · exact .inr ⟨d, by simp [hd], hne, h⟩

/-- The slot names a changed button, with its position and its new bit (R133). -/
theorem decodeButtons_some {c : Config} {raw prev : Packet} {t : Transition}
    (h : decodeButtons c raw prev = some t) :
    ∃ b : ButtonId, packetBit raw (c.pos b) ≠ packetBit prev (c.pos b) ∧ t.id.toNat = c.pos b ∧
      t.pressed = packetBit raw (c.pos b) := by
  rcases foldl_decodeButton_cases ButtonId.order none with h' | ⟨b, -, hne, h'⟩
  · exact absurd (h.symm.trans h') (by simp)
  · obtain rfl : t = _ := Option.some.inj (h.symm.trans h')
    exact ⟨b, hne, id_of_changed hne, rfl⟩

/-- A slot's button differs from the last accepted frame (R133, R145). -/
theorem decodeButtons_some_changed {c : Config} {raw prev : Packet} {t : Transition}
    (h : decodeButtons c raw prev = some t) :
    packetBit raw t.id.toNat = t.pressed ∧ packetBit prev t.id.toNat ≠ t.pressed := by
  obtain ⟨b, hne, hid, hp⟩ := decodeButtons_some h
  rw [hid, hp]
  exact ⟨rfl, fun h => hne h.symm⟩

/-- Every button is in the enumeration. -/
theorem mem_order (b : ButtonId) : b ∈ ButtonId.order := by
  cases b <;> decide

/-- BUTTON_DECODE reads its packets only at the six positions (R133). -/
theorem decodeButtons_congr {c : Config} {raw raw' prev prev' : Packet}
    (h : ∀ b, packetBit raw' (c.pos b) = packetBit raw (c.pos b))
    (h' : ∀ b, packetBit prev' (c.pos b) = packetBit prev (c.pos b)) :
    decodeButtons c raw' prev' = decodeButtons c raw prev := by
  have : decodeButton c raw' prev' = decodeButton c raw prev := by
    funext slot b
    simp [decodeButton, h b, h' b]
  simp [decodeButtons, this]

end Sys2Proof.Machine
end

