-- ==== Sys2Proof/Laws/Interpret.lean ====
section
/-!
SUPPORT. INTERPRET (41_interpreter.md rule R144), said once: everything it can do to a state.
-/

namespace Sys2Proof.Machine

/-- The candidate record of a packet (R139). -/
def candidateOf (raw : Packet) (s : State) : OutputRecord :=
  { slot := decodeButtons s.cfg raw s.prevFrame, wheel := wheelField raw }

/-- HAPTIC_DECIDE's condition (R137) as arithmetic. -/
theorem hapticFires_iff (wheel : Byte) (pos : Option Byte) :
    hapticFires wheel pos = true ↔ pos ≠ some wheel ∧ wheel.toNat % 2 = 0 := by
  simp [hapticFires, wheelEven_iff]

/-- HAPTIC_DECIDE in one equation (R137). -/
theorem hapticDecide_eq (wheel : Byte) (s : State) :
    hapticDecide wheel s =
      { s with
        hapticPos := if hapticFires wheel s.hapticPos then some wheel else s.hapticPos
        out := s.out ++ if hapticFires wheel s.hapticPos then [.hapticFire] else [] } := by
  unfold hapticDecide
  split <;> simp_all [State.onRegs, State.emit]

/-- A rejected packet (R132) changes no register and emits nothing. -/
theorem interpret_rejected {raw : Packet} (s : State) (h : markerMatches raw = false) :
    interpret raw s = { s with temps := { s.temps with returned := true } } := by
  simp [interpret, validate, h, State.onTemps]

/-- An accepted packet (R144): the haptic memory, the outputs, the frame and the record memory. -/
theorem interpret_accepted {raw : Packet} (s : State) (h : markerMatches raw = true) :
    interpret raw s =
      { s with
        hapticPos :=
          if hapticFires (wheelField raw) s.hapticPos then some (wheelField raw) else s.hapticPos
        out := s.out ++ (if hapticFires (wheelField raw) s.hapticPos then [.hapticFire] else [])
          ++ (if s.lastRecord = some (candidateOf raw s) then [] else [recordOutput (candidateOf raw s)])
        prevFrame := if s.lastRecord = some (candidateOf raw s) then s.prevFrame else raw
        lastRecord := some (candidateOf raw s)
        temps :=
          { returned := decide (s.lastRecord = some (candidateOf raw s))
            slot := decodeButtons s.cfg raw s.prevFrame
            wheel := wheelField raw } } := by
  have hc : (decodeFrame raw (validate raw s)).candidate = candidateOf raw s := by
    simp [decodeFrame, hapticDecide_eq, wheelExtract, buttonDecode, validate, State.onTemps,
      State.candidate, candidateOf]
  have hr : (validate raw s).temps.returned = false := by simp [validate, h]
  have : interpret raw s = dedupDispatch (candidateOf raw s) raw (decodeFrame raw (validate raw s)) := by
    simp only [interpret, hr, hc, if_false, Bool.false_eq_true]
  rw [this]
  by_cases hd : s.lastRecord = some (candidateOf raw s)
  · simp [dedupDispatch, dedup, decodeFrame, hapticDecide_eq, wheelExtract, buttonDecode, validate,
      State.onTemps, hd]
  · simp [dedupDispatch, dedup, dispatch, decodeFrame, hapticDecide_eq, wheelExtract, buttonDecode, validate,
      State.onTemps, State.onRegs, State.emit, hd]

end Sys2Proof.Machine
end

