-- ==== Sys2Proof/Laws/Edge.lean ====
section
/-!
SUPPORT. CLK_RISE (40_assembler.md rules R103 to R111), said once: the rows of rule R111's table.
-/

namespace Sys2Proof.Machine

/-- The configuration check passed (R11): the event has its effect. -/
@[simp] theorem State.whenConfigured_valid {s : State} (f : State → State) (h : s.cfg.valid = true) :
    s.whenConfigured f = f s := by
  simp [whenConfigured, h]

/-- The configuration check failed (R176): the event is refused. -/
@[simp] theorem State.whenConfigured_invalid {s : State} (f : State → State) (h : s.cfg.valid = false) :
    s.whenConfigured f = s.refuse := by
  simp [whenConfigured, h]

/-- Either way (R176). -/
theorem State.whenConfigured_cases (s : State) (f : State → State) :
    (s.cfg.valid = true ∧ s.whenConfigured f = f s) ∨
      (s.cfg.valid = false ∧ s.whenConfigured f = s.refuse) := by
  cases h : s.cfg.valid <;> simp [h]

/-- Without synchronisation nothing is written (R108). -/
theorem writeAndHandoff_unsync {s : State} (b : Bool) (h : s.synchronized = false) :
    writeAndHandoff b s = s := by
  simp [writeAndHandoff, h]

/-- The increment completes the window exactly at position 31 (R109). -/
theorem windowComplete_succ (k : Byte) : windowComplete (k + 1#8) = decide (k.toNat = 31) := by
  have hk := k.isLt
  simp only [windowComplete, packetLen, BitVec.toNat_add, BitVec.toNat_ofNat, Nat.reducePow, Nat.reduceMod]
  rw [Bool.eq_iff_iff, beq_iff_eq, decide_eq_true_iff]
  omega

/-- A write that does not complete the window (R108). -/
theorem writeAndHandoff_inside {s : State} (b : Bool) (h : s.synchronized = true)
    (hk : s.bitIndex.toNat ≠ 31) :
    writeAndHandoff b s = s.onRegs (Registers.writeSample b) := by
  simp [writeAndHandoff, h, windowComplete_succ, hk]

/-- A write that completes the window (R109). -/
theorem writeAndHandoff_last {s : State} (b : Bool) (h : s.synchronized = true)
    (hk : s.bitIndex.toNat = 31) :
    writeAndHandoff b s = handoff (s.onRegs (Registers.writeSample b)) := by
  simp [writeAndHandoff, h, windowComplete_succ, hk]

/-- The assembler's registers after a written sample (R107, R108): the state a window is handed off from. -/
def afterWrite (s : State) : State :=
  { s with
    bits := setPacketBit s.bits s.bitIndex.toNat s.dataLevel
    bitIndex := s.bitIndex + 1#8
    synchronized := true
    oneRunLength := if s.dataLevel then saturatingSucc s.oneRunLength else 0#8 }

/-- Everything a CLK_RISE can do (R103, R111): de-synchronise, count an unsynchronised one, or write the sample
and, at position 31, hand the window off. -/
theorem clockRise_cases (s : State) :
    (s.dataLevel = true ∧ 31 ≤ s.oneRunLength.toNat ∧
        clockRise s =
          { s with
            oneRunLength := saturatingSucc s.oneRunLength, synchronized := false, bitIndex := 0#8 }) ∨
      (s.dataLevel = true ∧ s.oneRunLength.toNat ≤ 30 ∧ s.synchronized = false ∧
        clockRise s = { s with oneRunLength := saturatingSucc s.oneRunLength }) ∨
      ((s.dataLevel = true → s.synchronized = true ∧ s.oneRunLength.toNat ≤ 30) ∧
        (s.bitIndex.toNat ≠ 31 ∧ clockRise s = afterWrite s ∨
          s.bitIndex.toNat = 31 ∧ clockRise s = handoff (afterWrite s))) := by
  rcases Registers.updateSync_cases s.dataLevel s.toRegisters with
    ⟨hd, h⟩ | ⟨hd, hr, h⟩ | ⟨hd, hr, h⟩
  · refine .inr (.inr ⟨by simp [hd], ?_⟩)
    have hu : s.onRegs (Registers.updateSync s.dataLevel) = s.onRegs Registers.resync := by
      simp [State.onRegs, h]
    by_cases hk : s.bitIndex.toNat = 31
    · refine .inr ⟨hk, ?_⟩
      rw [clockRise, hu, writeAndHandoff_last (s := s.onRegs Registers.resync) _ rfl hk]
      simp [afterWrite, hd, State.onRegs, Registers.writeSample, Registers.resync]
    · refine .inl ⟨hk, ?_⟩
      rw [clockRise, hu, writeAndHandoff_inside (s := s.onRegs Registers.resync) _ rfl hk]
      simp [afterWrite, hd, State.onRegs, Registers.writeSample, Registers.resync]
  · have hu : s.onRegs (Registers.updateSync s.dataLevel) = s.onRegs Registers.countOne := by
      simp [State.onRegs, h]
    cases hs : s.synchronized
    · refine .inr (.inl ⟨hd, hr, rfl, ?_⟩)
      rw [clockRise, hu, writeAndHandoff_unsync (s := s.onRegs Registers.countOne) _ hs]
      simp [State.onRegs, Registers.countOne, hs]
    · refine .inr (.inr ⟨fun _ => ⟨rfl, hr⟩, ?_⟩)
      by_cases hk : s.bitIndex.toNat = 31
      · refine .inr ⟨hk, ?_⟩
        rw [clockRise, hu, writeAndHandoff_last (s := s.onRegs Registers.countOne) _ hs hk]
        simp [afterWrite, hd, hs, State.onRegs, Registers.writeSample, Registers.countOne]
      · refine .inl ⟨hk, ?_⟩
        rw [clockRise, hu, writeAndHandoff_inside (s := s.onRegs Registers.countOne) _ hs hk]
        simp [afterWrite, hd, hs, State.onRegs, Registers.writeSample, Registers.countOne]
  · refine .inl ⟨hd, hr, ?_⟩
    have hu : s.onRegs (Registers.updateSync s.dataLevel) =
        { s with
          oneRunLength := saturatingSucc s.oneRunLength, synchronized := false, bitIndex := 0#8 } := by
      simp [State.onRegs, h]
    rw [clockRise, hu, writeAndHandoff_unsync _ rfl]

/-- The handoff of a packet without the marker (R132): only `bitIndex` changes. -/
theorem handoff_rejected {s : State} (h : markerMatches s.bits = false) :
    handoff s = { s with bitIndex := 0#8, temps := Temps.idle } := by
  simp [handoff, interpret_rejected _ h, State.clearTemps, State.onTemps, State.onRegs, Registers.rewind]

/-- The handoff of a packet with the marker (R144). -/
theorem handoff_accepted {s : State} (h : markerMatches s.bits = true) :
    handoff s =
      { s with
        bitIndex := 0#8
        hapticPos :=
          if hapticFires (wheelField s.bits) s.hapticPos then some (wheelField s.bits) else s.hapticPos
        out := s.out ++ (if hapticFires (wheelField s.bits) s.hapticPos then [.hapticFire] else [])
          ++ (if s.lastRecord = some (candidateOf s.bits s) then [] else [recordOutput (candidateOf s.bits s)])
        prevFrame := if s.lastRecord = some (candidateOf s.bits s) then s.prevFrame else s.bits
        lastRecord := some (candidateOf s.bits s)
        temps := Temps.idle } := by
  rw [handoff, interpret_accepted (s := s.onRegs Registers.rewind) h]
  rfl

/-- The next position as arithmetic: no overflow below 255 (R114). -/
theorem bitIndex_succ_toNat {k : Byte} (h : k.toNat ≤ 30) : (k + 1#8).toNat = k.toNat + 1 := by
  rw [BitVec.toNat_add]
  simp only [BitVec.toNat_ofNat, Nat.reducePow, Nat.reduceMod]
  omega

end Sys2Proof.Machine
end

