-- ==== Sys2Proof/Laws/PerInstr.lean ====
section
/-!
SUPPORT. The per-instruction statements, one lemma per constructor of Instr.
-/

namespace Sys2Proof.Laws

/-- Which rows have an event word (R72): exactly those the table marks decoded, and a row with a word has no
operand to check. -/
def Coded.Statement (i : Instr) : Prop :=
  (encode i).isSome = i.isEvent ∧ (i.isEvent = true → WellFormed i = true)

theorem Coded.dataLow : Coded.Statement .dataLow := ⟨rfl, fun _ => rfl⟩
theorem Coded.dataHigh : Coded.Statement .dataHigh := ⟨rfl, fun _ => rfl⟩
theorem Coded.clkFall : Coded.Statement .clkFall := ⟨rfl, fun _ => rfl⟩
theorem Coded.clkRise : Coded.Statement .clkRise := ⟨rfl, fun _ => rfl⟩
theorem Coded.reset : Coded.Statement .reset := ⟨rfl, fun _ => rfl⟩
theorem Coded.reserved101 : Coded.Statement .reserved101 := ⟨rfl, fun _ => rfl⟩
theorem Coded.reserved110 : Coded.Statement .reserved110 := ⟨rfl, fun _ => rfl⟩
theorem Coded.reserved111 : Coded.Statement .reserved111 := ⟨rfl, fun _ => rfl⟩
theorem Coded.validate (raw : Packet) : Coded.Statement (.validate raw) := ⟨rfl, nofun⟩
theorem Coded.buttonDecode (raw : Packet) : Coded.Statement (.buttonDecode raw) := ⟨rfl, nofun⟩
theorem Coded.wheelExtract (raw : Packet) : Coded.Statement (.wheelExtract raw) := ⟨rfl, nofun⟩
theorem Coded.hapticDecide (wheel : Byte) : Coded.Statement (.hapticDecide wheel) := ⟨rfl, nofun⟩
theorem Coded.dedup (rec : OutputRecord) : Coded.Statement (.dedup rec) := ⟨rfl, nofun⟩
theorem Coded.dispatch (rec : OutputRecord) (raw : Packet) : Coded.Statement (.dispatch rec raw) :=
  ⟨rfl, nofun⟩

end Sys2Proof.Laws
end

