-- ==== Sys2Proof/Laws/Step.lean ====
section
/-!
SUPPORT. What an event, and a step, can do: one inversion lemma each, from which invariants are derived.
-/

namespace Sys2Proof.Machine

/-- Every event word decodes to a row the table marks decoded (R72). -/
theorem decode_isEvent (w : EventWord) : (decode w).isEvent = true := by
  unfold decode
  cases evRst w <;> cases evLine w <;> cases evLevel w <;> rfl

/-- Everything an event can do (R101, R102, R103, R200, R176). -/
theorem exec_event_cases {i : Instr} {s t : State} (hi : i.isEvent = true) (h : exec i s = .next t) :
    ((s.cfg.valid = false ∨ i.isReserved = true) ∧ t = s.refuse) ∨
      (s.cfg.valid = true ∧
        ((i = .dataLow ∧ t = { s with dataLevel := false }) ∨
          (i = .dataHigh ∧ t = { s with dataLevel := true }) ∨ (i = .clkFall ∧ t = s) ∨
          (i = .clkRise ∧ t = clockRise s) ∨ (i = .reset ∧ t = resetEvent s))) := by
  have wc : ∀ {f : State → State} {P : Prop},
      Host.Outcome.next (φ := Fault) (ρ := Refusal) (s.whenConfigured f) = .next t →
      (s.cfg.valid = true → t = f s → P) →
      ((s.cfg.valid = false ∨ i.isReserved = true) ∧ t = s.refuse) ∨ (s.cfg.valid = true ∧ P) := by
    intro f P h hp
    rcases s.whenConfigured_cases f with ⟨hv, hw⟩ | ⟨hv, hw⟩
    · exact .inr ⟨hv, hp hv ((Host.Outcome.next.inj h).symm.trans hw)⟩
    · exact .inl ⟨.inl hv, (Host.Outcome.next.inj h).symm.trans hw⟩
  cases i with
  | dataLow => exact wc h fun _ ht => .inl ⟨rfl, ht⟩
  | dataHigh => exact wc h fun _ ht => .inr (.inl ⟨rfl, ht⟩)
  | clkFall => exact wc h fun _ ht => .inr (.inr (.inl ⟨rfl, ht⟩))
  | clkRise => exact wc h fun _ ht => .inr (.inr (.inr (.inl ⟨rfl, ht⟩)))
  | reset => exact wc h fun _ ht => .inr (.inr (.inr (.inr ⟨rfl, ht⟩)))
  | reserved101 => exact .inl ⟨.inr rfl, (Host.Outcome.next.inj h).symm⟩
  | reserved110 => exact .inl ⟨.inr rfl, (Host.Outcome.next.inj h).symm⟩
  | reserved111 => exact .inl ⟨.inr rfl, (Host.Outcome.next.inj h).symm⟩
  | validate _ => cases hi
  | buttonDecode _ => cases hi
  | wheelExtract _ => cases hi
  | hapticDecide _ => cases hi
  | dedup _ => cases hi
  | dispatch _ _ => cases hi

/-- Everything a step can do: wait, or run the event its next word decodes to (R17, R20). -/
theorem step_cases {s t : State} (h : step s = .next t) :
    (s.pending = [] ∧ t = s) ∨
      ∃ w rest, s.pending = w :: rest ∧ (decode w).isEvent = true ∧
        exec (decode w) { s with pending := rest } = .next t := by
  unfold step State.nextEvent at h
  split at h
  · next heq =>
    split at heq
    · next hp => exact .inl ⟨hp, (Host.Outcome.next.inj h).symm⟩
    · cases heq
  · next w s' heq =>
    split at heq
    · cases heq
    · next v rest hp =>
      cases heq
      exact .inr ⟨_, _, hp, decode_isEvent _, h⟩

/-- The place of an event word put in front (R61). -/
theorem placeEvent_lt {s : State} {n : Nat} (h : n < 8) :
    s.placeEvent n = { s with pending := BitVec.ofNat 3 n :: s.pending } := by
  simp [State.placeEvent, h]

end Sys2Proof.Machine
end

