-- ==== Sys2Proof/Tests/Slice0.lean ====
section
/-!
SUPPORT. Tests. Every expected value is the spec's: the decode table of 30_encoding.md rule R72, the vectors of
95_test_vectors.md sections 2 and 3 (named in each test), or an example of the rule named. The witness_ theorems
show, for each statement of Certificates/Slice0/Obligations.lean with hypotheses, inputs that meet them.
-/

namespace Sys2Proof.Tests

open Machine

/-- The test configuration TC1 (95_test_vectors.md). -/
def tc1 : Config := { left := 24, right := 25, up := 26, down := 27, wheelTouch := 28 }

/-- The state S0 of 95_test_vectors.md, under TC1. -/
def s0 : State :=
  { toRegisters := Registers.afterReset false, cfg := tc1, pending := [], out := [], draws := 1
    temps := Temps.idle }

/-- The state after an event, if it is a next state. -/
def nextOf (o : Host.Outcome State Fault Refusal) : Option State :=
  match o with
  | .next t => some t
  | .fault _ => none
  | .refused _ => none

/-- The state of vectors X4, X5, B-e, D-a: a dispatched frame with wheel 4 and no button pressed. -/
def s4 : State :=
  { s0 with
    prevFrame := 0x00040016#32, lastRecord := some { slot := none, wheel := 4#8 }, hapticPos := some 4#8 }

/-- The state of vector K-f, one sample before a valid window. -/
def sLast : State := { s0 with synchronized := true, bitIndex := 31#8, bits := 0x00040096#32 }

/-! ### Well-formedness: an ill-formed term for each check -/

theorem test_wf_buttonDecode_needs_marker : WellFormed (.buttonDecode 0x0004008D#32) = false := by decide
theorem test_wf_wheelExtract_needs_marker : WellFormed (.wheelExtract 0x00000000#32) = false := by decide
theorem test_wf_dispatch_needs_marker :
    WellFormed (.dispatch { slot := none, wheel := 4#8 } 0x0004008D#32) = false := by decide
theorem test_wf_dispatch_needs_wheel :
    WellFormed (.dispatch { slot := none, wheel := 5#8 } 0x00040096#32) = false := by decide
theorem test_wf_dispatch_needs_bit :
    WellFormed (.dispatch { slot := some { id := 7#5, pressed := false }, wheel := 4#8 } 0x00040096#32) = false := by
  decide
theorem test_wf_dispatch_example :
    WellFormed (.dispatch { slot := some { id := 7#5, pressed := true }, wheel := 4#8 } 0x00040096#32) = true := by
  decide
theorem test_config_tc1_valid : tc1.valid = true := by decide
theorem test_config_out_of_range : { tc1 with wheelTouch := 32 }.valid = false := by decide
theorem test_config_shares_center : { tc1 with left := 7 }.valid = false := by decide

/-! ### Decoding: the words of R72, written out as rst, line, level -/

theorem test_decode_dataLow : decode 0b000#3 = .dataLow := by decide
theorem test_decode_dataHigh : decode 0b001#3 = .dataHigh := by decide
theorem test_decode_clkFall : decode 0b010#3 = .clkFall := by decide
theorem test_decode_clkRise : decode 0b011#3 = .clkRise := by decide
theorem test_decode_reset : decode 0b100#3 = .reset := by decide
theorem test_decode_reserved101 : decode 0b101#3 = .reserved101 := by decide
theorem test_decode_reserved110 : decode 0b110#3 = .reserved110 := by decide
theorem test_decode_reserved111 : decode 0b111#3 = .reserved111 := by decide
/-- No word names an internal row (R72: "decoded": false). -/
theorem test_encode_internal : encode (.validate 0x00040096#32) = none := by decide
/-- R83: nothing above 3 bits is an event word. -/
theorem test_decode_rejects_wide : decodeTableWord 8 8 = none := by decide
theorem test_decode_table_word : decodeTableWord 3 3 = some .clkRise := by decide

/-! ### Events (95_test_vectors.md section 2) -/

/-- E-1. -/
theorem test_dataHigh : nextOf (exec .dataHigh s0) = some { s0 with dataLevel := true } := by decide
/-- E-2. -/
theorem test_dataLow : nextOf (exec .dataLow { s0 with dataLevel := true }) = some s0 := by decide
/-- F-2. -/
theorem test_clkFall_at_last_cell : nextOf (exec .clkFall sLast) = some sLast := by decide
/-- K-c: the guard runs before the write. -/
theorem test_clkRise_guard :
    nextOf (exec .clkRise
        { s0 with
          synchronized := true, bitIndex := 10#8, oneRunLength := 31#8, dataLevel := true
          bits := 0xFFFFFBFF#32 }) =
      some { s0 with oneRunLength := 32#8, dataLevel := true, bits := 0xFFFFFBFF#32 } := by decide
/-- K-f: the handoff of a valid window. -/
theorem test_clkRise_handoff :
    nextOf (exec .clkRise sLast) =
      some
        { s0 with
          synchronized := true, bits := 0x00040096#32, prevFrame := 0x00040096#32
          lastRecord := some { slot := some { id := 7#5, pressed := true }, wheel := 4#8 }
          hapticPos := some 4#8
          out := [.hapticFire, .record 0x07#8 0x01#8 0x04#8] } := by decide
/-- T-4, T-3: RESET clears the mark and drops the partial window. -/
theorem test_reset :
    (nextOf (exec .reset { sLast with refusalMark := true })).map
        (fun t => (t.refusalMark, t.synchronized, t.bitIndex, t.bits, t.out)) =
      some (false, false, 0#8, 0#32, []) := by decide
/-- Z-1. -/
theorem test_reserved101 : nextOf (exec .reserved101 s0) = some { s0 with refusalMark := true } := by decide
/-- Z-1, on the next reserved word. -/
theorem test_reserved110 : nextOf (exec .reserved110 s0) = some { s0 with refusalMark := true } := by decide
/-- Z-2: no handoff. -/
theorem test_reserved111 :
    nextOf (exec .reserved111 sLast) = some { sLast with refusalMark := true } := by decide
/-- Z-3: the mark stays through a CLK_RISE, whose effect is the normal one (K-e's write at bit 0). -/
theorem test_clkRise_keeps_mark_in_step :
    (nextOf (step { s0 with refusalMark := true, pending := [0b011#3], bits := 0xFFFFFFFF#32 })).map
        (fun t => (t.refusalMark, t.bits, t.bitIndex, t.pending)) =
      some (true, 0xFFFFFFFE#32, 1#8, []) := by decide
/-- R176: a broken configuration refuses a CLK_RISE whole. -/
theorem test_broken_config_refuses :
    nextOf (exec .clkRise { sLast with cfg := { tc1 with left := 7 } }) =
      some { sLast with cfg := { tc1 with left := 7 }, refusalMark := true } := by decide

/-! ### Interpreter rows (95_test_vectors.md section 3) -/

/-- R132's example, accepted. -/
theorem test_validate_accepts :
    (nextOf (exec (.validate 0x00040096#32) s0)).map (·.temps.returned) = some false := by decide
/-- V-b: the numeric reading of the marker is rejected. -/
theorem test_validate_rejects :
    (nextOf (exec (.validate 0x0004008D#32) s0)).map (·.temps.returned) = some true := by decide
/-- B-b (TC1): the last changed button, WheelTouch, wins. -/
theorem test_buttonDecode_last_wins :
    (nextOf (exec (.buttonDecode 0x1F040096#32) s0)).map (·.temps.slot) =
      some (some { id := 28#5, pressed := true }) := by decide
/-- B-a: a release. -/
theorem test_buttonDecode_release :
    (nextOf (exec (.buttonDecode 0x00040016#32) { s0 with prevFrame := 0x00040096#32 })).map (·.temps.slot) =
      some (some { id := 7#5, pressed := false }) := by decide
/-- W-b: bit 16 is the least significant. -/
theorem test_wheelExtract_lsb :
    (nextOf (exec (.wheelExtract 0x00010016#32) s0)).map (·.temps.wheel) = some 1#8 := by decide
/-- W-c: bit 23 is 128, bit 31 is ignored. -/
theorem test_wheelExtract_msb :
    (nextOf (exec (.wheelExtract 0x80800016#32) s0)).map (·.temps.wheel) = some 0x80#8 := by decide
/-- H-a: position 0 fires first after reset. -/
theorem test_hapticDecide_first :
    nextOf (exec (.hapticDecide 0#8) s0) = some { s0 with hapticPos := some 0#8, out := [.hapticFire] } := by decide
/-- H-d: an odd position does nothing. -/
theorem test_hapticDecide_odd : nextOf (exec (.hapticDecide 5#8) s4) = some s4 := by decide
/-- D-a: suppressed. -/
theorem test_dedup_suppresses :
    (nextOf (exec (.dedup { slot := none, wheel := 4#8 }) s4)).map (·.temps.returned) = some true := by decide
/-- D-c: the first record always goes out. -/
theorem test_dedup_first :
    (nextOf (exec (.dedup { slot := none, wheel := 4#8 }) s0)).map (·.temps.returned) = some false := by decide
/-- R142's example. -/
theorem test_dispatch :
    nextOf (exec (.dispatch { slot := some { id := 7#5, pressed := true }, wheel := 4#8 } 0x00040096#32) s0) =
      some
        { s0 with
          prevFrame := 0x00040096#32
          lastRecord := some { slot := some { id := 7#5, pressed := true }, wheel := 4#8 }
          out := [.record 0x07#8 0x01#8 0x04#8] } := by decide
/-- V-e (TC1): six changed buttons, an odd wheel. -/
theorem test_interpret_all_buttons :
    (interpret 0xFFFFFFF6#32 s0).out = [.record 0x1C#8 0x01#8 0xFF#8] ∧
      (interpret 0xFFFFFFF6#32 s0).hapticPos = none := by decide
/-- D-d (TC1): an unassigned bit makes no new record, and the frame is not remembered. -/
theorem test_interpret_unassigned_bit :
    (interpret 0x00040416#32 s4).out = [] ∧ (interpret 0x00040416#32 s4).prevFrame = 0x00040016#32 := by decide

/-! ### Script syntax (R84, R85) -/

/-- R85: BIT 1 is 132. -/
theorem test_script_bit : scriptDigits (scriptBit true) = [1, 3, 2] := by decide
/-- R85: least significant bit first (the first digits of K96). -/
theorem test_script_pkt :
    (scriptDigits (scriptPkt 0x00040096#32)).take 12 = [0, 3, 2, 1, 3, 2, 1, 3, 2, 0, 3, 2] := by decide

/-! ### The invariants hold somewhere -/

/-- S0 meets R34. -/
theorem inv_s0 : Inv s0 :=
  ⟨by decide, by decide, by decide, by decide, by simp [s0, Registers.afterReset],
    by simp [s0, Registers.afterReset], by decide⟩

/-- So does the state after a dispatch. -/
theorem inv_s4 : Inv s4 := by
  refine ⟨by decide, by decide, by decide, ?_, ?_, ?_, by decide⟩
  · intro p hp
    obtain rfl : 4#8 = p := Option.some.inj hp
    decide
  · intro r t hr ht
    obtain rfl : ({ slot := none, wheel := 4#8 } : OutputRecord) = r := Option.some.inj hr
    cases ht
  · intro r hr _
    obtain rfl : ({ slot := none, wheel := 4#8 } : OutputRecord) = r := Option.some.inj hr
    rfl

/-! ### Witnesses of the statements' hypotheses -/

theorem witness_DecodeEncodeRoundTrip : encode .clkRise = some 0b011#3 ∧ 8 ≤ 8 := by decide
theorem witness_StepRunsDecodedEvent :
    { s0 with pending := [0b011#3] }.pending = 0b011#3 :: [] ∧ encode .clkRise = some 0b011#3 ∧ s0.pending = [] := by
  decide
theorem witness_PlacedWordRunsNext : decodeTableWord 8 7 = some .reserved111 := by decide
theorem witness_DataEventsLatchLevel : s0.cfg.valid = true := by decide
theorem witness_ClkFallDoesNothing : sLast.cfg.valid = true := by decide
theorem witness_DataAndResetIdempotent :
    exec .dataLow { s0 with dataLevel := true } = .next s0 ∧ exec .dataHigh s0 = .next { s0 with dataLevel := true } ∧
      exec .reset s0 = .next (resetEvent s0) ∧
      exec .reset (resetEvent s0) = .next (resetEvent (resetEvent s0)) :=
  ⟨rfl, rfl, rfl, rfl⟩
theorem witness_BrokenConfigRefusesEvents_range :
    Instr.isEvent .reset = true ∧ 32 ≤ { s0 with cfg := { tc1 with wheelTouch := 32 } }.cfg.pos .wheelTouch := by
  decide
theorem witness_BrokenConfigRefusesEvents_shared :
    Instr.isEvent .clkRise = true ∧ ButtonId.center ≠ .left ∧
      { s0 with cfg := { tc1 with left := 7 } }.cfg.pos .center =
        { s0 with cfg := { tc1 with left := 7 } }.cfg.pos .left := by decide
theorem witness_RefusalMarkClearedOnlyByReset :
    ∃ t, step { s0 with pending := [0b101#3] } = .next t ∧ t.refusalMark = true := ⟨_, rfl, rfl⟩
theorem witness_ResetEventRestoresRegisters : s0.cfg.valid = true ∧ ∃ t, exec .reset s0 = .next t :=
  ⟨by decide, _, rfl⟩
theorem witness_PowerOnIsOneReset :
    s0.cfg.valid = true ∧
      ∃ s : State, s.cfg = State.reset.cfg ∧ s.pending = [] ∧ s.out = [] ∧ s.draws + 1 = State.reset.draws ∧
        AtBoundary s :=
  ⟨by decide, { sLast with cfg := State.reset.cfg, draws := 0 }, rfl, rfl, rfl, rfl, rfl⟩
theorem witness_RunCountAfterClkRise :
    ∃ s t : State, s.cfg.valid = true ∧ s.oneRunLength.toNat = 255 ∧ s.dataLevel = true ∧ exec .clkRise s = .next t :=
  ⟨{ s0 with dataLevel := true, oneRunLength := 255#8 }, _, by decide, by decide, rfl, rfl⟩
theorem witness_ClkRiseGuardDesynchronises :
    ∃ s : State, s.cfg.valid = true ∧ s.dataLevel = true ∧ s.oneRunLength.toNat = 31 :=
  ⟨{ s0 with dataLevel := true, oneRunLength := 31#8 }, by decide⟩
theorem witness_ClkRiseUnsynchronisedOneCounts :
    ∃ s : State, s.cfg.valid = true ∧ s.dataLevel = true ∧ s.oneRunLength.toNat = 30 ∧ s.synchronized = false :=
  ⟨{ s0 with dataLevel := true, oneRunLength := 30#8 }, by decide⟩
theorem witness_ClkRiseWritesOne :
    ∃ s : State, s.cfg.valid = true ∧ s.dataLevel = true ∧ s.oneRunLength.toNat = 30 ∧ s.synchronized = true ∧
      s.bitIndex.toNat = 30 :=
  ⟨{ s0 with dataLevel := true, oneRunLength := 30#8, synchronized := true, bitIndex := 30#8 }, by decide⟩
theorem witness_ClkRiseZeroSynchronisesAndIsWritten :
    ∃ s : State, s.cfg.valid = true ∧ s.dataLevel = false ∧ s.bitIndex.toNat = 30 :=
  ⟨{ s0 with bitIndex := 30#8 }, by decide⟩
theorem witness_ClkRiseDropsWindowWithoutMarker :
    ∃ (s : State) (raw : Packet), s.cfg.valid = true ∧ s.bitIndex.toNat = 31 ∧ AtBoundary s ∧
      s.dataLevel = true ∧ s.synchronized = true ∧ s.oneRunLength.toNat = 26 ∧
      (∀ i, i < 32 → packetBit raw i = (if i = 31 then s.dataLevel else packetBit s.bits i)) ∧
      raw &&& 0x1F#32 ≠ 0x16#32 :=
  ⟨{ s0 with
      synchronized := true, bitIndex := 31#8, oneRunLength := 26#8, dataLevel := true, bits := 0x7FFFFFE0#32 },
    0xFFFFFFE0#32, by decide, by decide, rfl, rfl, rfl, by decide, by decide, by decide⟩
theorem witness_ClkRiseInterpretsAcceptedWindow :
    sLast.cfg.valid = true ∧ sLast.bitIndex.toNat = 31 ∧ AtBoundary sLast ∧ sLast.dataLevel = false ∧
      (∀ i, i < 32 → packetBit 0x00040096#32 i = (if i = 31 then sLast.dataLevel else packetBit sLast.bits i)) ∧
      0x00040096#32 &&& 0x1F#32 = 0x16#32 :=
  ⟨by decide, by decide, rfl, rfl, by decide, by decide⟩
theorem witness_HandoffClearsNothing :
    sLast.cfg.valid = true ∧ sLast.bitIndex.toNat = 31 ∧ sLast.dataLevel = false ∧
      ∃ t, exec .clkRise sLast = .next t := ⟨by decide, by decide, rfl, _, rfl⟩
theorem witness_ZeroSampleSynchronisesAnywhere :
    sLast.cfg.valid = true ∧ sLast.dataLevel = false ∧ sLast.bitIndex.toNat = 31 := by decide
/-- The first position that has no cell, where log 6 speaks. -/
theorem witness_ZeroSampleSynchronisesAnywhere_noCell :
    s0.cfg.valid = true ∧ ({ s0 with bitIndex := 32#8 }).dataLevel = false ∧
      ({ s0 with bitIndex := 32#8 }).bitIndex.toNat = 32 := by decide
/-- The window of R117's X1: position 31 of a synchronised assembler, whose next step leaves it synchronised. -/
theorem witness_ClkRiseWritesExactlyWhileSynchronised :
    ∃ s t : State, Inv s ∧ s.cfg.valid = true ∧ s.bitIndex.toNat = 31 ∧ exec .clkRise s = .next t ∧
      t.synchronized = true :=
  ⟨{ s0 with synchronized := true, bitIndex := 31#8 }, _,
    ⟨by decide, by decide, by decide, by decide, by simp [s0, Registers.afterReset],
      by simp [s0, Registers.afterReset], by decide⟩, by decide, by decide, rfl, rfl⟩
/-- The other clause: the one that reaches the threshold. -/
theorem witness_ClkRiseWritesExactlyWhileSynchronised_unsync :
    ∃ s t : State, Inv s ∧ s.cfg.valid = true ∧ exec .clkRise s = .next t ∧ t.synchronized = false :=
  ⟨{ s0 with synchronized := true, bitIndex := 10#8, oneRunLength := 31#8, dataLevel := true }, _,
    ⟨by decide, by decide, by decide, by decide, by simp [s0, Registers.afterReset],
      by simp [s0, Registers.afterReset], by decide⟩, by decide, rfl, rfl⟩
theorem witness_ButtonDecodeReportsLastChange :
    [ButtonId.center, .left, .right, .up, .down, .wheelTouch] = [.center, .left, .right, .up, .down] ++ .wheelTouch :: [] ∧
      packetBit 0x1F040096#32 (s0.cfg.pos .wheelTouch) ≠ packetBit s0.prevFrame (s0.cfg.pos .wheelTouch) ∧
      [ButtonId.center, .left, .right, .up, .down, .wheelTouch] = [] ++ .center :: [.left, .right, .up, .down, .wheelTouch] ∧
      packetBit 0x00040096#32 (s0.cfg.pos .center) ≠ packetBit s0.prevFrame (s0.cfg.pos .center) ∧
      ∀ c ∈ [ButtonId.left, .right, .up, .down, .wheelTouch],
        packetBit 0x00040096#32 (s0.cfg.pos c) = packetBit s0.prevFrame (s0.cfg.pos c) := by decide
theorem witness_HapticDecideFiresOnNewEven :
    (0#8).toNat % 2 = 0 ∧ s0.hapticPos ≠ some 0#8 ∧ (255#8).toNat % 2 = 1 ∧ s4.hapticPos = some 4#8 := by decide
theorem witness_RecordEncodingInjective :
    recordOutput { slot := none, wheel := 4#8 } = recordOutput { slot := none, wheel := 4#8 } ∧
      recordWord24 { slot := none, wheel := 4#8 } = recordWord24 { slot := none, wheel := 4#8 } := by decide
theorem witness_StepKeepsInvariants : Inv s4 ∧ ∃ t, step { s4 with pending := [0b011#3] } = .next t :=
  ⟨inv_s4, _, rfl⟩
theorem witness_TemporariesIdleAtStepBoundaries :
    AtBoundary { sLast with pending := [0b011#3] } ∧ ∃ t, step { sLast with pending := [0b011#3] } = .next t :=
  ⟨rfl, _, rfl⟩
theorem witness_TransitionIsNeverSuppressed :
    Inv s4 ∧ ∃ t u, exec (.buttonDecode 0x00040096#32) s4 = .next t ∧
      t.temps.slot = some { id := 7#5, pressed := true } ∧
      exec (.dedup { slot := some { id := 7#5, pressed := true }, wheel := 4#8 }) t = .next u :=
  ⟨inv_s4, _, _, rfl, by decide, rfl⟩
theorem witness_StepOutputsHapticOnlyBeforeRecord :
    Inv s0 ∧ ∃ t, step { s0 with pending := [0b011#3] } = .next t := ⟨inv_s0, _, rfl⟩
theorem witness_ConsecutiveRecordsDiffer :
    TraceAgrees { s4 with out := [.record 0xFF#8 0x00#8 0x04#8] } ∧
      ∃ t, step { s4 with out := [.record 0xFF#8 0x00#8 0x04#8], pending := [0b011#3] } = .next t :=
  ⟨by
    intro r hr
    obtain rfl : ({ slot := none, wheel := 4#8 } : OutputRecord) = r := Option.some.inj hr
    decide, _, rfl⟩
theorem witness_EmittedRecordsAreLegal :
    ∃ t, step { sLast with pending := [0b011#3] } = .next t ∧ t.out.length = 2 := ⟨_, rfl, by decide⟩
theorem witness_StepKeepsConfigAndHistory : ∃ t, step { s4 with pending := [0b100#3] } = .next t := ⟨_, rfl⟩
theorem witness_RegistersWrittenOnlyByTheirEvents :
    Instr.isEvent .clkFall = true ∧ Instr.clkFall ≠ .clkRise ∧ Instr.clkFall ≠ .reset ∧ Instr.clkFall ≠ .dataLow ∧
      Instr.clkFall ≠ .dataHigh ∧ nextOf (exec .clkFall s4) = some s4 := by decide
theorem witness_FrameAndRecordWrittenTogether : ∃ t, exec .clkRise sLast = .next t := ⟨_, rfl⟩
theorem witness_StepReadsOnlyRegistersAndConfig :
    ∃ s' t t' : State, Instr.isEvent .clkRise = true ∧ s'.toRegisters = sLast.toRegisters ∧ s'.cfg = sLast.cfg ∧
      s'.draws = sLast.draws ∧ s'.out ≠ sLast.out ∧ exec .clkRise sLast = .next t ∧ exec .clkRise s' = .next t' :=
  ⟨{ sLast with out := [.hapticFire] }, _, _, rfl, rfl, rfl, rfl, by decide, rfl, rfl⟩
theorem witness_StaleAccumulatorCellsUnobservable :
    ∃ t, Instr.isEvent .clkRise = true ∧ sLast.bitIndex.toNat < 32 ∧
      (sLast.synchronized = false → sLast.bitIndex = 0#8) ∧
      (∀ k, k < sLast.bitIndex.toNat → packetBit 0x80040096#32 k = packetBit sLast.bits k) ∧
      exec .clkRise sLast = .next t := ⟨_, rfl, by decide, by decide, by decide, rfl⟩
theorem witness_PrevFrameReadOnlyAtButtonPositions :
    ∃ t, Instr.isEvent .clkRise = true ∧
      (∀ k, packetBit 0x0000A000#32 (sLast.cfg.pos k) = packetBit sLast.prevFrame (sLast.cfg.pos k)) ∧
      exec .clkRise sLast = .next t :=
  ⟨_, rfl, fun k => by cases k <;> decide, rfl⟩
theorem witness_RunCountAboveThresholdUnobservable :
    ∃ s t : State, Instr.isEvent .clkRise = true ∧ s.synchronized = false ∧ s.oneRunLength.toNat = 32 ∧
      32 ≤ (255#8).toNat ∧ exec .clkRise s = .next t :=
  ⟨{ s0 with oneRunLength := 32#8, dataLevel := true }, _, rfl, rfl, by decide, by decide, rfl⟩
theorem witness_UnassignedPacketBitsIgnored : sameFields tc1 0x0004A096#32 0x00040096#32 :=
  ⟨by decide, by decide, fun k => by cases k <;> decide⟩
theorem witness_HapticHalving :
    s0.hapticPos ≠ some 2#8 ∧ markerMatches 0x00020016#32 = true ∧ markerMatches 0x00030016#32 = true ∧
      markerMatches 0x00040016#32 = true ∧ wheelField 0x00020016#32 = 2#8 ∧ wheelField 0x00030016#32 = 3#8 ∧
      wheelField 0x00040016#32 = 4#8 := by decide
theorem witness_CenterPressGivesOneRecord :
    Inv s4 ∧ s4.cfg.valid = true ∧ markerMatches 0x00040096#32 = true ∧ packetBit s4.prevFrame 7 = false ∧
      packetBit 0x00040096#32 7 = true ∧
      (∀ i, i < 32 → i ≠ 7 → packetBit 0x00040096#32 i = packetBit s4.prevFrame i) :=
  ⟨inv_s4, by decide, by decide, by decide, by decide, by decide⟩
theorem witness_RepeatedFrameOutputs :
    Inv s4 ∧ markerMatches 0x00040416#32 = true ∧ markerMatches 0x00040096#32 = true ∧
      (∀ b, packetBit 0x00040416#32 (s4.cfg.pos b) = packetBit s4.prevFrame (s4.cfg.pos b)) ∧
      ∃ b, packetBit 0x00040096#32 (s4.cfg.pos b) ≠ packetBit s4.prevFrame (s4.cfg.pos b) :=
  ⟨inv_s4, by decide, by decide, fun b => by cases b <;> decide, .center, by decide⟩
theorem witness_RunOfOnesResynchronises : s0.cfg.valid = true ∧ 32 ≤ 32 := by decide
theorem witness_AlignSynchronisesFromEveryState : sLast.cfg.valid = true := by decide
theorem witness_FramedPacketAssembledExactly :
    s0.synchronized = false ∧ s0.cfg.valid = true ∧ s0.bitIndex = 0#8 ∧
      markerMatches 0xFFFFFFF6#32 = true := by decide
/-- R117's second case: a synchronised start at position 0. -/
theorem witness_FramedPacketAssembledExactly_synchronized :
    ({ s0 with synchronized := true }).synchronized = true ∧ s0.cfg.valid = true ∧
      ({ s0 with synchronized := true }).bitIndex = 0#8 ∧ markerMatches 0xFFFFFFF6#32 = true := by decide
theorem witness_EndToEndCenterPress :
    s0.cfg.valid = true ∧ s0.bitIndex = 0#8 ∧ s0.prevFrame = 0x00000000#32 ∧ s0.lastRecord = none ∧
      s0.hapticPos = none ∧
      (∀ b : ButtonId, b ≠ .center →
        s0.cfg.pos b ≠ 1 ∧ s0.cfg.pos b ≠ 2 ∧ s0.cfg.pos b ≠ 4 ∧ s0.cfg.pos b ≠ 18) :=
  ⟨by decide, by decide, by decide, by decide, by decide, fun b => by cases b <;> decide⟩

end Sys2Proof.Tests
end

section
/-!
PROOFS. The scope rules of 00_scope.md: the configuration check (R11), what a refused event does under a broken
configuration (R176), which event a step runs (R20, R61), and what an event may read (R17).
-/

namespace Sys2Proof

open Machine

/-! ### The configuration check (R11) -/

/-- The range test speaks of each button (R11). -/
theorem Config.inRange_iff (c : Config) : c.inRange = true ↔ ∀ b, c.pos b < 32 := by
  simp [inRange, positions, mem_order]

/-- The distinctness test speaks of each pair of buttons (R11). -/
theorem Config.distinct_iff (c : Config) :
    c.distinct = true ↔ ∀ b d, b ≠ d → c.pos b ≠ c.pos d := by
  have horder : ButtonId.order.Nodup := by decide
  rw [distinct, decide_eq_true_iff, positions, List.nodup_map_iff_inj_on horder]
  simp only [mem_order, true_imp_iff]
  exact forall₂_congr fun _ _ => not_imp_not.symm

/-- The check is its two conditions (R11). -/
theorem Config.valid_iff (c : Config) :
    c.valid = true ↔ (∀ b, c.pos b < 32) ∧ ∀ b d, b ≠ d → c.pos b ≠ c.pos d := by
  rw [valid, Bool.and_eq_true, inRange_iff, distinct_iff]

/-- Settles O11: each of the two tests is its condition, read off the enumeration of the buttons. -/
theorem configCheckIsRangeAndDistinct : Obligations.ConfigCheckIsRangeAndDistinct :=
  Config.valid_iff

end Sys2Proof

namespace Sys2Proof.Machine

/-! ### Refusal under a broken configuration (R176) -/

/-- Every row answers a next state (R170). -/
theorem exec_next (i : Instr) (s : State) : ∃ t, exec i s = .next t := by
  cases i <;> exact ⟨_, rfl⟩

/-- A configuration that fails the check refuses every event (R176, log 5). -/
theorem exec_event_refused {i : Instr} {s : State} (hi : i.isEvent = true) (hv : s.cfg.valid = false) :
    exec i s = .next s.refuse := by
  obtain ⟨t, ht⟩ := exec_next i s
  rcases exec_event_cases hi ht with ⟨-, rfl⟩ | ⟨hv', -⟩
  · exact ht
  · exact absurd (hv.symm.trans hv') Bool.false_ne_true

/-- Settles O10: a position out of range, or shared, fails the check, and a failed check refuses the event. -/
theorem brokenConfigRefusesEvents : Obligations.BrokenConfigRefusesEvents := by
  intro s i hi hbroken
  refine exec_event_refused hi (Bool.eq_false_iff.mpr fun hv => ?_)
  obtain ⟨hrange, hdistinct⟩ := s.cfg.valid_iff.mp hv
  rcases hbroken with ⟨b, hb⟩ | ⟨b, d, hne, heq⟩
  · exact absurd (hrange b) (Nat.not_lt.mpr hb)
  · exact hdistinct b d hne heq

/-! ### The event a step runs (R20, R61) -/

/-- With an event pending, a step runs the row its word decodes to (R20, R61). -/
theorem step_of_pending_cons {s : State} {w : EventWord} {rest : List EventWord} (h : s.pending = w :: rest) :
    step s = exec (decode w) { s with pending := rest } := by
  simp [step, State.nextEvent, h]

/-- With no event pending, the core waits (R187). -/
theorem step_of_pending_nil {s : State} (h : s.pending = []) : step s = .next s := by
  simp [step, State.nextEvent, h]

/-- The word of a row decodes to the row (R72). -/
theorem decode_of_encode {i : Instr} {w : EventWord} (h : encode i = some w) : decode w = i := by
  cases i <;> cases h <;> rfl

/-- Settles O3: the step's two branches, and the decoder undoing the encoder. -/
theorem stepRunsDecodedEvent : Obligations.StepRunsDecodedEvent := by
  refine ⟨fun _ _ _ => step_of_pending_cons, fun s i w rest hw hp => ?_, fun _ => step_of_pending_nil⟩
  rw [step_of_pending_cons hp, decode_of_encode hw]

/-! ### What an event reads (R17) -/

/-- The state with all that R17 lets no event read erased: the events to come, the outputs so far and the
temporaries. -/
def State.erased (s : State) : State := { s with pending := [], out := [], temps := Temps.idle }

/-- Erasing leaves the registers, the configuration and the draw. -/
theorem State.erased_congr {s s' : State} (hregs : s'.toRegisters = s.toRegisters) (hcfg : s'.cfg = s.cfg)
    (hdraws : s'.draws = s.draws) : s'.erased = s.erased := by
  simp [State.erased, hregs, hcfg, hdraws]

/-- `f` reads only the erased state: its registers are those it gives there, and so is what it appends to the
outputs. -/
def ReadsErased (f : State → State) : Prop :=
  ∀ s, (f s).toRegisters = (f s.erased).toRegisters ∧ (f s).out = s.out ++ (f s.erased).out

/-- A change of the registers alone emits nothing. -/
theorem ReadsErased.onRegs (g : Registers → Registers) : ReadsErased (·.onRegs g) :=
  fun s => ⟨rfl, (List.append_nil s.out).symm⟩

/-- An event without effect reads nothing (R75). -/
theorem ReadsErased.id : ReadsErased fun s => s :=
  ReadsErased.onRegs fun r => r

/-- RESET reads nothing but the draw (R200). -/
theorem ReadsErased.resetEvent : ReadsErased resetEvent :=
  fun s => ⟨rfl, (List.append_nil s.out).symm⟩

/-- The handoff (R109, R144). -/
theorem ReadsErased.handoff : ReadsErased handoff := by
  intro s
  cases h : markerMatches s.bits
  · rw [handoff_rejected h, handoff_rejected (s := s.erased) h]
    exact ⟨rfl, (List.append_nil s.out).symm⟩
  · rw [handoff_accepted h, handoff_accepted (s := s.erased) h]
    refine ⟨rfl, ?_⟩
    rw [List.append_assoc]
    rfl

/-- The write and, at a complete window, the handoff (R108, R109). -/
theorem ReadsErased.writeAndHandoff (b : Bool) : ReadsErased (writeAndHandoff b) := by
  intro s
  cases hs : s.synchronized
  · rw [writeAndHandoff_unsync b hs, writeAndHandoff_unsync (s := s.erased) b hs]
    exact ReadsErased.id s
  · by_cases hk : s.bitIndex.toNat = 31
    · rw [writeAndHandoff_last b hs hk, writeAndHandoff_last (s := s.erased) b hs hk]
      exact ReadsErased.handoff (s.onRegs (Registers.writeSample b))
    · rw [writeAndHandoff_inside b hs hk, writeAndHandoff_inside (s := s.erased) b hs hk]
      exact ReadsErased.onRegs _ s

/-- CLK_RISE (R103): the sample is a register. -/
theorem ReadsErased.clockRise : ReadsErased clockRise :=
  fun s => ReadsErased.writeAndHandoff s.dataLevel (s.onRegs (Registers.updateSync s.dataLevel))

/-- The configuration check reads the configuration only (R11, R176). -/
theorem ReadsErased.whenConfigured {f : State → State} (hf : ReadsErased f) :
    ReadsErased (·.whenConfigured f) := by
  intro s
  cases hv : s.cfg.valid
  · simp only [s.whenConfigured_invalid f hv, s.erased.whenConfigured_invalid f hv]
    exact ReadsErased.onRegs _ s
  · simp only [s.whenConfigured_valid f hv, s.erased.whenConfigured_valid f hv]
    exact hf s

/-- Every event is a function on states that reads the erased state only. -/
theorem exec_event_readsErased {i : Instr} (hi : i.isEvent = true) :
    ∃ f, ReadsErased f ∧ ∀ s, exec i s = .next (f s) := by
  cases i with
  | dataLow => exact ⟨_, (ReadsErased.onRegs _).whenConfigured, fun _ => rfl⟩
  | dataHigh => exact ⟨_, (ReadsErased.onRegs _).whenConfigured, fun _ => rfl⟩
  | clkFall => exact ⟨_, ReadsErased.id.whenConfigured, fun _ => rfl⟩
  | clkRise => exact ⟨_, ReadsErased.clockRise.whenConfigured, fun _ => rfl⟩
  | reset => exact ⟨_, ReadsErased.resetEvent.whenConfigured, fun _ => rfl⟩
  | reserved101 => exact ⟨_, ReadsErased.onRegs _, fun _ => rfl⟩
  | reserved110 => exact ⟨_, ReadsErased.onRegs _, fun _ => rfl⟩
  | reserved111 => exact ⟨_, ReadsErased.onRegs _, fun _ => rfl⟩
  | validate _ => cases hi
  | buttonDecode _ => cases hi
  | wheelExtract _ => cases hi
  | hapticDecide _ => cases hi
  | dedup _ => cases hi
  | dispatch _ _ => cases hi

/-- Settles O43: both states have one erased state, and it alone gives the registers and the new outputs. -/
theorem stepReadsOnlyRegistersAndConfig : Obligations.StepReadsOnlyRegistersAndConfig := by
  intro i s s' t t' hi hregs hcfg hdraws ht ht'
  obtain ⟨f, hf, hexec⟩ := exec_event_readsErased hi
  obtain rfl : f s = t := Host.Outcome.next.inj ((hexec s).symm.trans ht)
  obtain rfl : f s' = t' := Host.Outcome.next.inj ((hexec s').symm.trans ht')
  obtain ⟨hr, ho⟩ := hf s
  obtain ⟨hr', ho'⟩ := hf s'
  rw [State.erased_congr hregs hcfg hdraws] at hr' ho'
  exact ⟨hr'.trans hr.symm, _, ho, ho'⟩

end Sys2Proof.Machine
end

section
/-!
PROOFS. The state rules of 10_state.md: what each event may write (R21 to R29, R32), the seven invariants (R34),
the registers after reset (R35), and what of `bits` and `prevFrame` no event can observe (R36, R147).
-/

namespace Sys2Proof.Machine

/-! ### The three shapes of an event -/

/-- An event is a CLK_RISE or a RESET, or it writes at most the data level and the refusal mark (R101, R102,
R176). -/
theorem exec_event_shape {i : Instr} {s t : State} (hi : i.isEvent = true) (h : exec i s = .next t) :
    (∃ d m, t = { s with dataLevel := d, refusalMark := m }) ∨ t = clockRise s ∨
      (i = .reset ∧ t = resetEvent s) := by
  rcases exec_event_cases hi h with
    ⟨-, rfl⟩ | ⟨-, ⟨-, rfl⟩ | ⟨-, rfl⟩ | ⟨-, rfl⟩ | ⟨-, rfl⟩ | hreset⟩
  · exact .inl ⟨_, _, rfl⟩
  · exact .inl ⟨_, _, rfl⟩
  · exact .inl ⟨_, _, rfl⟩
  · exact .inl ⟨_, _, rfl⟩
  · exact .inr (.inl rfl)
  · exact .inr (.inr hreset)

/-! ### The handoff's frame (R109, R110) -/

/-- The handoff sets `bitIndex` and the temporaries, and otherwise writes only INTERPRET's memories and the
outputs. -/
theorem handoff_frame (s : State) :
    handoff s =
      { s with
        bitIndex := 0#8, temps := Temps.idle
        hapticPos := (handoff s).hapticPos, out := (handoff s).out
        prevFrame := (handoff s).prevFrame, lastRecord := (handoff s).lastRecord } := by
  cases h : markerMatches s.bits
  · rw [handoff_rejected h]
  · rw [handoff_accepted h]

@[simp] theorem handoff_bits (s : State) : (handoff s).bits = s.bits :=
  congrArg (·.bits) (handoff_frame s)
@[simp] theorem handoff_bitIndex (s : State) : (handoff s).bitIndex = 0#8 :=
  congrArg (·.bitIndex) (handoff_frame s)
@[simp] theorem handoff_oneRunLength (s : State) : (handoff s).oneRunLength = s.oneRunLength :=
  congrArg (·.oneRunLength) (handoff_frame s)
@[simp] theorem handoff_dataLevel (s : State) : (handoff s).dataLevel = s.dataLevel :=
  congrArg (·.dataLevel) (handoff_frame s)
@[simp] theorem handoff_cfg (s : State) : (handoff s).cfg = s.cfg :=
  congrArg (·.cfg) (handoff_frame s)
@[simp] theorem handoff_pending (s : State) : (handoff s).pending = s.pending :=
  congrArg (·.pending) (handoff_frame s)
@[simp] theorem handoff_draws (s : State) : (handoff s).draws = s.draws :=
  congrArg (·.draws) (handoff_frame s)
@[simp] theorem handoff_temps (s : State) : (handoff s).temps = Temps.idle :=
  congrArg (·.temps) (handoff_frame s)

/-! ### The record memory and the RECORDs of an event (R27, R28, R57) -/

/-- What stands between two states as regards RECORDs (R57, R142, R146): none left and both memories stayed, or
one other than the last left, as the last output, and both memories moved to the window just completed. -/
inductive RecordEffect (s t : State) : Prop where
  | silent (os : List Output) (hos : ∀ o ∈ os, isRecord o = false) (hout : t.out = s.out ++ os)
      (hprev : t.prevFrame = s.prevFrame) (hlast : t.lastRecord = s.lastRecord)
  | dispatched (os : List Output) (r : OutputRecord) (hos : ∀ o ∈ os, isRecord o = false)
      (hout : t.out = s.out ++ os ++ [recordOutput r]) (hprev : t.prevFrame = t.bits)
      (hmarker : markerMatches t.bits = true) (hindex : t.bitIndex = 0#8)
      (hlast : t.lastRecord = some r) (hnew : s.lastRecord ≠ some r) (hwheel : r.wheel = wheelField t.bits)

/-- Nothing emitted and neither memory written. -/
theorem RecordEffect.of_unchanged {s t : State} (hout : t.out = s.out) (hprev : t.prevFrame = s.prevFrame)
    (hlast : t.lastRecord = s.lastRecord) : RecordEffect s t :=
  .silent [] nofun (hout.trans (List.append_nil _).symm) hprev hlast

/-- The handoff (R132, R142, R146): rejected or suppressed it is silent, otherwise it dispatches. -/
theorem recordEffect_handoff (s : State) : RecordEffect s (handoff s) := by
  cases hm : markerMatches s.bits
  · rw [handoff_rejected hm]
    exact .of_unchanged rfl rfl rfl
  · have hpulse : ∀ o ∈ if hapticFires (wheelField s.bits) s.hapticPos then [Output.hapticFire] else [],
        isRecord o = false := by
      split <;> simp [isRecord]
    rw [handoff_accepted hm]
    by_cases hd : s.lastRecord = some (candidateOf s.bits s)
    · exact .silent _ hpulse (by simp [hd]) (if_pos hd) hd.symm
    · exact .dispatched _ _ hpulse (by simp [hd]) (if_neg hd) hm rfl rfl hd rfl

/-! ### CLK_RISE: one equation for each row of R111's table -/

/-- The one that reaches the threshold, or comes after it (R106). -/
theorem clockRise_guard {s : State} (hd : s.dataLevel = true) (hr : 31 ≤ s.oneRunLength.toNat) :
    clockRise s =
      { s with
        oneRunLength := saturatingSucc s.oneRunLength, synchronized := false, bitIndex := 0#8 } := by
  rcases clockRise_cases s with ⟨-, -, h⟩ | ⟨-, hr', -⟩ | ⟨hone, -⟩
  · exact h
  · omega
  · have := (hone hd).2
    omega

/-- A one below the threshold without synchronisation (R105, R108). -/
theorem clockRise_unsync {s : State} (hd : s.dataLevel = true) (hr : s.oneRunLength.toNat ≤ 30)
    (hs : s.synchronized = false) :
    clockRise s = { s with oneRunLength := saturatingSucc s.oneRunLength } := by
  rcases clockRise_cases s with ⟨-, hr', -⟩ | ⟨-, -, -, h⟩ | ⟨hone, -⟩
  · omega
  · exact h
  · exact absurd ((hone hd).1.symm.trans hs) (by decide)

/-- A written sample (R108), which at position 31 completes the window (R109). -/
theorem clockRise_write {s : State}
    (hone : s.dataLevel = true → s.synchronized = true ∧ s.oneRunLength.toNat ≤ 30) :
    clockRise s = if s.bitIndex.toNat = 31 then handoff (afterWrite s) else afterWrite s := by
  rcases clockRise_cases s with ⟨hd, hr, -⟩ | ⟨hd, -, hs, -⟩ | ⟨-, ⟨hk, h⟩ | ⟨hk, h⟩⟩
  · have := (hone hd).2
    omega
  · exact absurd ((hone hd).1.symm.trans hs) (by decide)
  · rw [h, if_neg hk]
  · rw [h, if_pos hk]

/-- A CLK_RISE writes the assembler's four registers only, or hands a written window off: what both can be
seen to do, it does. -/
theorem clockRise_rec {s : State} {P : State → Prop}
    (hassemble : ∀ b k c f,
      P { s with bits := b, bitIndex := k, oneRunLength := c, synchronized := f })
    (hhandoff : P (handoff (afterWrite s))) : P (clockRise s) := by
  rcases clockRise_cases s with ⟨-, -, h⟩ | ⟨-, -, -, h⟩ | ⟨-, ⟨-, h⟩ | ⟨-, h⟩⟩ <;> rw [h]
  · exact hassemble _ _ _ _
  · exact hassemble _ _ _ _
  · exact hassemble _ _ _ _
  · exact hhandoff

@[simp] theorem clockRise_dataLevel (s : State) : (clockRise s).dataLevel = s.dataLevel :=
  clockRise_rec (P := (·.dataLevel = s.dataLevel)) (fun _ _ _ _ => rfl) (handoff_dataLevel _)
@[simp] theorem clockRise_cfg (s : State) : (clockRise s).cfg = s.cfg :=
  clockRise_rec (P := (·.cfg = s.cfg)) (fun _ _ _ _ => rfl) (handoff_cfg _)
@[simp] theorem clockRise_pending (s : State) : (clockRise s).pending = s.pending :=
  clockRise_rec (P := (·.pending = s.pending)) (fun _ _ _ _ => rfl) (handoff_pending _)
@[simp] theorem clockRise_draws (s : State) : (clockRise s).draws = s.draws :=
  clockRise_rec (P := (·.draws = s.draws)) (fun _ _ _ _ => rfl) (handoff_draws _)

/-- The run count of a CLK_RISE (R105). -/
theorem clockRise_oneRunLength (s : State) :
    (clockRise s).oneRunLength = if s.dataLevel then saturatingSucc s.oneRunLength else 0#8 := by
  rcases clockRise_cases s with ⟨hd, -, h⟩ | ⟨hd, -, -, h⟩ | ⟨-, ⟨-, h⟩ | ⟨-, h⟩⟩ <;> rw [h]
  · rw [if_pos hd]
  · rw [if_pos hd]
  · rfl
  · exact handoff_oneRunLength _

/-- CLK_RISE reaches the record memory through the handoff only (R27, R28). -/
theorem recordEffect_clockRise (s : State) : RecordEffect s (clockRise s) := by
  refine clockRise_rec (P := RecordEffect s) (fun _ _ _ _ => .of_unchanged rfl rfl rfl) ?_
  cases recordEffect_handoff (afterWrite s) with
  | silent os hos hout hprev hlast => exact .silent os hos hout hprev hlast
  | dispatched os r hos hout hprev hmarker hindex hlast hnew hwheel =>
    exact .dispatched os r hos hout hprev hmarker hindex hlast hnew hwheel

/-- What an event does to the outputs and the record memory (R21): RESET clears the memory, and the other
events have one of the two effects. -/
theorem exec_event_recordEffect {i : Instr} {s t : State} (hi : i.isEvent = true) (h : exec i s = .next t) :
    RecordEffect s t ∨ (i = .reset ∧ t = resetEvent s) := by
  rcases exec_event_shape hi h with ⟨_, _, rfl⟩ | rfl | hreset
  · exact .inl (.of_unchanged rfl rfl rfl)
  · exact .inl (recordEffect_clockRise s)
  · exact .inr hreset

/-- Settles O16: the count of `clockRise_oneRunLength`, as arithmetic. -/
theorem runCountAfterClkRise : Obligations.RunCountAfterClkRise := by
  intro s t hv h
  obtain rfl : s.whenConfigured clockRise = t := Host.Outcome.next.inj h
  rw [State.whenConfigured_valid _ hv, clockRise_oneRunLength]
  split
  · exact saturatingSucc_toNat _
  · rfl

/-- Settles O42: the two cases of `RecordEffect` are the statement's. -/
theorem frameAndRecordWrittenTogether : Obligations.FrameAndRecordWrittenTogether := by
  intro s t h
  rcases exec_event_recordEffect rfl h with
    (⟨os, hos, hout, hprev, hlast⟩ |
      ⟨os, r, _, hout, hprev, hmarker, hindex, hlast, hnew, hwheel⟩) | ⟨hreset, -⟩
  · exact .inl ⟨hprev, hlast, fun os' hout' => List.append_cancel_left (hout.symm.trans hout') ▸ hos⟩
  · refine .inr ⟨hprev, (markerMatches_iff _).mp hmarker, hindex, r, hlast, hnew, hwheel, ?_⟩
    rw [hout, List.getLast?_concat]
  · cases hreset

/-! ### What the events and the steps leave unchanged (R21, R32, R61) -/

/-- Settles O41: event by event, what its equation leaves alone. -/
theorem registersWrittenOnlyByTheirEvents : Obligations.RegistersWrittenOnlyByTheirEvents := by
  intro i s t hi h
  rcases exec_event_cases hi h with
    ⟨-, rfl⟩ | ⟨-, ⟨rfl, rfl⟩ | ⟨rfl, rfl⟩ | ⟨rfl, rfl⟩ | ⟨rfl, rfl⟩ | ⟨rfl, rfl⟩⟩
  all_goals simp

/-- An event writes neither the configuration nor the events to come (R32, R61). -/
theorem exec_event_cfg_pending {i : Instr} {s t : State} (hi : i.isEvent = true) (h : exec i s = .next t) :
    t.cfg = s.cfg ∧ t.pending = s.pending := by
  rcases exec_event_shape hi h with ⟨_, _, rfl⟩ | rfl | ⟨-, rfl⟩
  · exact ⟨rfl, rfl⟩
  · exact ⟨clockRise_cfg s, clockRise_pending s⟩
  · exact ⟨rfl, rfl⟩

/-- An event takes back no output (R66). -/
theorem exec_event_out_prefix {i : Instr} {s t : State} (hi : i.isEvent = true) (h : exec i s = .next t) :
    s.out <+: t.out := by
  rcases exec_event_recordEffect hi h with (⟨os, _, hout⟩ | ⟨os, r, _, hout⟩) | ⟨-, rfl⟩
  · exact ⟨os, hout.symm⟩
  · exact ⟨os ++ [recordOutput r], by rw [hout, List.append_assoc]⟩
  · exact List.prefix_rfl

/-- Settles O40: a step that waits changes nothing, and one that runs an event takes that event off the
sequence. -/
theorem stepKeepsConfigAndHistory : Obligations.StepKeepsConfigAndHistory := by
  intro s t h
  rcases step_cases h with ⟨hp, rfl⟩ | ⟨w, rest, hp, hi, h⟩
  · exact ⟨rfl, List.prefix_rfl, by rw [hp]; rfl⟩
  · obtain ⟨hcfg, hpending⟩ := exec_event_cfg_pending hi h
    have hout := exec_event_out_prefix hi h
    exact ⟨hcfg, hout, by rw [hpending, hp]; rfl⟩

/-! ### Invariants of events and steps -/

/-- A property that no delivery and no event breaks holds after every step (R20, R61). -/
theorem step_keeps {P : State → Prop} (hdeliver : ∀ s rest, P s → P { s with pending := rest })
    (hexec : ∀ (i : Instr) (s t : State), i.isEvent = true → P s → exec i s = .next t → P t)
    {s t : State} (hs : P s) (h : step s = .next t) : P t := by
  rcases step_cases h with ⟨-, rfl⟩ | ⟨w, rest, -, hi, h⟩
  · exact hs
  · exact hexec (decode w) _ t hi (hdeliver s rest hs) h

/-- INTERPRET ends inside the CLK_RISE that began it, and no other event writes a temporary (R133, log 3). -/
theorem exec_event_atBoundary {i : Instr} {s t : State} (hi : i.isEvent = true) (hs : AtBoundary s)
    (h : exec i s = .next t) : AtBoundary t := by
  rcases exec_event_shape hi h with ⟨_, _, rfl⟩ | rfl | ⟨-, rfl⟩
  · exact hs
  · exact clockRise_rec (P := AtBoundary) (fun _ _ _ _ => hs) (handoff_temps _)
  · exact hs

/-- Settles O35: every event keeps the temporaries idle, so every step does. -/
theorem temporariesIdleAtStepBoundaries : Obligations.TemporariesIdleAtStepBoundaries :=
  ⟨rfl, fun _ _ => step_keeps (fun _ _ hs => hs) fun _ _ _ => exec_event_atBoundary⟩

/-! ### The registers after reset (R35) -/

/-- Settles O14: the draw of power-on is the one at 0, the other values are written out in R35. -/
theorem resetStateHasR35Values : Obligations.ResetStateHasR35Values :=
  ⟨rfl, rfl, rfl, rfl, ⟨0, rfl⟩, rfl, rfl, rfl, rfl⟩

/-! ### The seven invariants (R34) -/

/-- The registers after a RESET meet the invariants, whatever level it drew (R34, R35). -/
theorem inv_of_afterReset {s : State} {level : Bool} (h : s.toRegisters = Registers.afterReset level) :
    Inv s := by
  constructor <;> simp [h, Registers.afterReset]

/-- Settles O34: power-on has the registers of R35. -/
theorem resetMeetsInvariants : Obligations.ResetMeetsInvariants :=
  inv_of_afterReset rfl

/-- The invariants speak of seven registers. -/
theorem inv_of_registers {s t : State} (hs : Inv s)
    (h : t.toRegisters = { s.toRegisters with dataLevel := t.dataLevel, refusalMark := t.refusalMark }) :
    Inv t := by
  obtain ⟨index_lt, sync_run, unsync_index, haptic_even, pressed_prev, even_haptic, none_prev⟩ := hs
  constructor <;> rw [h] <;> assumption

/-- HAPTIC_DECIDE remembers even positions only (R34 item 4). -/
theorem hapticPos_next_even {w : Byte} {pos : Option Byte} (hpos : ∀ p, pos = some p → wheelEven p = true) :
    ∀ p, (if hapticFires w pos then some w else pos) = some p → wheelEven p = true := by
  intro p hp
  split at hp
  · next hf =>
    obtain rfl : w = p := Option.some.inj hp
    exact (wheelEven_iff w).mpr ((hapticFires_iff w pos).mp hf).2
  · exact hpos p hp

/-- After HAPTIC_DECIDE on an even position, that position is the one remembered (R34 item 6). -/
theorem hapticPos_next_of_even {w : Byte} {pos : Option Byte} (hw : wheelEven w = true) :
    (if hapticFires w pos then some w else pos) = some w := by
  split
  · rfl
  · next hf =>
    by_contra hne
    exact hf ((hapticFires_iff w pos).mpr ⟨hne, (wheelEven_iff w).mp hw⟩)

/-- The handoff keeps the invariants of a state that meets them with the window's position rewound. -/
theorem inv_handoff {s : State} (hs : Inv { s with bitIndex := 0#8 }) : Inv (handoff s) := by
  cases hm : markerMatches s.bits
  · rw [handoff_rejected hm]
    exact { hs with }
  · rw [handoff_accepted hm]
    refine
      { hs with
        haptic_even := hapticPos_next_even hs.haptic_even
        pressed_prev := ?_
        even_haptic := ?_
        none_prev := nofun }
    · intro r t hr ht
      obtain rfl : candidateOf s.bits s = r := Option.some.inj hr
      by_cases hd : s.lastRecord = some (candidateOf s.bits s)
      · simp only [if_pos hd]
        exact hs.pressed_prev _ t hd ht
      · simp only [if_neg hd]
        exact (decodeButtons_some_changed ht).1
    · intro r hr heven
      obtain rfl : candidateOf s.bits s = r := Option.some.inj hr
      exact hapticPos_next_of_even heven

/-- A written sample keeps the invariants at every position a cell has. -/
theorem inv_afterWrite {s : State} (hs : Inv s) (hone : s.dataLevel = true → s.oneRunLength.toNat ≤ 30)
    {k : Byte} (hk : k.toNat < 32) : Inv { afterWrite s with bitIndex := k } := by
  refine { hs with index_lt := hk, sync_run := fun _ => ?_, unsync_index := nofun }
  cases hd : s.dataLevel
  · simp [afterWrite, hd]
  · have := hone hd
    simp only [afterWrite, hd, if_true, saturatingSucc_toNat]
    omega

/-- CLK_RISE keeps the invariants (R103 to R111). -/
theorem inv_clockRise {s : State} (hs : Inv s) : Inv (clockRise s) := by
  rcases clockRise_cases s with
    ⟨-, -, h⟩ | ⟨-, -, hsync, h⟩ | ⟨hone, ⟨hk, h⟩ | ⟨-, h⟩⟩ <;> rw [h]
  · exact { hs with index_lt := by simp, sync_run := nofun, unsync_index := fun _ => rfl }
  · exact { hs with sync_run := fun h => absurd (hsync.symm.trans h) (by decide) }
  · have hlt := hs.index_lt
    refine inv_afterWrite hs (k := s.bitIndex + 1#8) (fun hd => (hone hd).2) ?_
    rw [bitIndex_succ_toNat (by omega)]
    omega
  · exact inv_handoff (inv_afterWrite hs (fun hd => (hone hd).2) (by decide))

/-- Every event keeps the invariants. -/
theorem exec_event_inv {i : Instr} {s t : State} (hi : i.isEvent = true) (hs : Inv s)
    (h : exec i s = .next t) : Inv t := by
  rcases exec_event_shape hi h with ⟨_, _, rfl⟩ | rfl | ⟨-, rfl⟩
  · exact inv_of_registers hs rfl
  · exact inv_clockRise hs
  · exact inv_of_afterReset rfl

/-- Settles O33: the invariants speak of registers only, and every event keeps them. -/
theorem stepKeepsInvariants : Obligations.StepKeepsInvariants :=
  fun _ _ => step_keeps (fun _ _ hs => inv_of_registers hs rfl) fun _ _ _ => exec_event_inv

/-! ### The last RECORD of the outputs (R28, R63) -/

/-- Outputs that are no RECORD leave the last RECORD as it is. -/
theorem lastRecordOf_append_silent {os : List Output} (hos : ∀ o ∈ os, isRecord o = false) (l : List Output) :
    lastRecordOf (l ++ os) = lastRecordOf l := by
  have hnone : os.reverse.find? isRecord = none := by simpa using hos
  simp [lastRecordOf, hnone]

/-- A record just emitted is the last RECORD. -/
theorem lastRecordOf_concat_record (l : List Output) (r : OutputRecord) :
    lastRecordOf (l ++ [recordOutput r]) = some (recordOutput r) := by
  simp [lastRecordOf, recordOutput, isRecord]

/-- A button's identifier is not the sentinel (R81, R82): it is below 32. -/
theorem zeroExtend_ne_sentinel (id : BitVec 5) : id.zeroExtend 8 ≠ sentinel := by
  intro h
  have hid := id.isLt
  have : id.toNat % 256 = 255 := by simpa [sentinel] using congrArg BitVec.toNat h
  omega

/-- The three bytes determine the record (R82). -/
theorem recordOutput_injective : Function.Injective recordOutput := by
  rintro ⟨slot, wheel⟩ ⟨slot', wheel'⟩ h
  obtain ⟨h0, h1, rfl : wheel = wheel'⟩ := Output.record.inj h
  match slot, slot' with
  | none, none => rfl
  | none, some t => exact absurd h0.symm (zeroExtend_ne_sentinel t.id)
  | some t, none => exact absurd h0 (zeroExtend_ne_sentinel t.id)
  | some ⟨id, pressed⟩, some ⟨id', pressed'⟩ =>
    have hid : id = id' := by
      have : id.toNat % 256 = id'.toNat % 256 := by
        simpa [recordByte0] using congrArg BitVec.toNat h0
      exact BitVec.eq_of_toNat_eq (by omega)
    have hpressed : pressed = pressed' := by
      cases pressed <;> cases pressed' <;> simp [recordByte1] at h1 ⊢
    rw [hid, hpressed]

/-- No RECORD between two states repeats the last RECORD before them, back to the last RESET (R63). -/
def EmitsNoRepeat (s t : State) : Prop :=
  ∃ os, t.out = s.out ++ os ∧
    ∀ o ∈ os, isRecord o = true → s.lastRecord ≠ none → lastRecordOf s.out ≠ some o

/-- With nothing emitted nothing is repeated. -/
theorem EmitsNoRepeat.of_out_eq {s t : State} (h : t.out = s.out) : EmitsNoRepeat s t :=
  ⟨[], h.trans (List.append_nil _).symm, nofun⟩

/-- A record effect keeps the memory and the trace in agreement (R28). -/
theorem RecordEffect.traceAgrees {s t : State} (he : RecordEffect s t) (hs : TraceAgrees s) :
    TraceAgrees t := by
  intro q hq
  rcases he with ⟨os, hos, hout, _, hlast⟩ | ⟨os, r, _, hout, _, _, _, hlast⟩
  · rw [hout, lastRecordOf_append_silent hos]
    exact hs q (hlast.symm.trans hq)
  · obtain rfl : r = q := Option.some.inj (hlast.symm.trans hq)
    rw [hout, lastRecordOf_concat_record]

/-- The record dispatched is not the remembered one, which is the last RECORD (R63). -/
theorem RecordEffect.emitsNoRepeat {s t : State} (he : RecordEffect s t) (hs : TraceAgrees s) :
    EmitsNoRepeat s t := by
  rcases he with ⟨os, hos, hout⟩ | ⟨os, r, hos, hout, _, _, _, _, hnew⟩
  · exact ⟨os, hout, fun o ho hrec => absurd hrec (by simp [hos o ho])⟩
  · refine ⟨os ++ [recordOutput r], by rw [hout, List.append_assoc], fun o ho hrec hsome hlast => ?_⟩
    rcases List.mem_append.mp ho with ho | ho
    · exact absurd hrec (by simp [hos o ho])
    · obtain rfl := List.mem_singleton.mp ho
      obtain ⟨q, hq⟩ := Option.ne_none_iff_exists'.mp hsome
      have hqr : q = r := recordOutput_injective (Option.some.inj ((hs q hq).symm.trans hlast))
      exact hnew (hqr ▸ hq)

/-- Every event keeps the memory and the trace in agreement, and repeats no RECORD. -/
theorem exec_event_records {i : Instr} {s t : State} (hi : i.isEvent = true) (hs : TraceAgrees s)
    (h : exec i s = .next t) : TraceAgrees t ∧ EmitsNoRepeat s t := by
  rcases exec_event_recordEffect hi h with he | ⟨-, rfl⟩
  · exact ⟨he.traceAgrees hs, he.emitsNoRepeat hs⟩
  · exact ⟨nofun, .of_out_eq rfl⟩

/-- Settles O38: a step that waits emits nothing, and one that runs an event does what the event does. -/
theorem consecutiveRecordsDiffer : Obligations.ConsecutiveRecordsDiffer := by
  refine ⟨nofun, fun s t hs h => ?_⟩
  rcases step_cases h with ⟨-, rfl⟩ | ⟨w, rest, -, hi, h⟩
  · exact ⟨hs, EmitsNoRepeat.of_out_eq rfl⟩
  · exact exec_event_records (s := { s with pending := rest }) hi hs h

/-! ### Two states under one event -/

/-- The configuration check on two states of one configuration (R11). -/
theorem State.whenConfigured_sim {R : State → State → Prop} {f : State → State} {s s' : State}
    (hcfg : s'.cfg = s.cfg) (hrefuse : R s.refuse s'.refuse) (hf : R (f s) (f s')) :
    R (s.whenConfigured f) (s'.whenConfigured f) := by
  cases hv : s.cfg.valid
  · rwa [s.whenConfigured_invalid f hv, s'.whenConfigured_invalid f (hcfg ▸ hv)]
  · rwa [s.whenConfigured_valid f hv, s'.whenConfigured_valid f (hcfg ▸ hv)]

/-- A relation between two states of one configuration that the refusal, the data level's write, CLK_RISE and
RESET keep is kept by every event. -/
theorem exec_event_sim {R : State → State → Prop} {i : Instr} {s s' t : State} (hi : i.isEvent = true)
    (h : exec i s = .next t) (hcfg : s'.cfg = s.cfg) (hR : R s s') (hrefuse : R s.refuse s'.refuse)
    (hdata : ∀ d, R { s with dataLevel := d } { s' with dataLevel := d })
    (hclock : R (clockRise s) (clockRise s')) (hreset : R (resetEvent s) (resetEvent s')) :
    ∃ t', exec i s' = .next t' ∧ R t t' := by
  have sim : ∀ {f : State → State}, R (f s) (f s') → R (s.whenConfigured f) (s'.whenConfigured f) :=
    State.whenConfigured_sim hcfg hrefuse
  cases i with
  | dataLow => exact ⟨_, rfl, Host.Outcome.next.inj h ▸ sim (hdata false)⟩
  | dataHigh => exact ⟨_, rfl, Host.Outcome.next.inj h ▸ sim (hdata true)⟩
  | clkFall => exact ⟨_, rfl, Host.Outcome.next.inj h ▸ sim hR⟩
  | clkRise => exact ⟨_, rfl, Host.Outcome.next.inj h ▸ sim hclock⟩
  | reset => exact ⟨_, rfl, Host.Outcome.next.inj h ▸ sim hreset⟩
  | reserved101 => exact ⟨_, rfl, Host.Outcome.next.inj h ▸ hrefuse⟩
  | reserved110 => exact ⟨_, rfl, Host.Outcome.next.inj h ▸ hrefuse⟩
  | reserved111 => exact ⟨_, rfl, Host.Outcome.next.inj h ▸ hrefuse⟩
  | validate _ => cases hi
  | buttonDecode _ => cases hi
  | wheelExtract _ => cases hi
  | hapticDecide _ => cases hi
  | dedup _ => cases hi
  | dispatch _ _ => cases hi

/-! ### Stale cells of the accumulator (R36, R112) -/

/-- Two states that differ at most in the cells of `bits` at `bitIndex` and above. -/
def DifferInStaleCells (s s' : State) : Prop :=
  ∃ b : Packet, s' = { s with bits := b } ∧ ∀ k, k < s.bitIndex.toNat → packetBit b k = packetBit s.bits k

/-- The two states may be one. -/
theorem DifferInStaleCells.refl (s : State) : DifferInStaleCells s s :=
  ⟨s.bits, rfl, fun _ _ => rfl⟩

/-- A written cell joins the cells below it in which two packets agree (R108). -/
theorem packetBit_setPacketBit_congr {v v' : Packet} {i : Nat}
    (h : ∀ k, k < i → packetBit v' k = packetBit v k) (d : Bool) {k : Nat} (hki : k ≤ i) (hk : k < 32) :
    packetBit (setPacketBit v' i d) k = packetBit (setPacketBit v i d) k := by
  rw [packetBit_setPacketBit v' i d hk, packetBit_setPacketBit v i d hk]
  split
  · rfl
  · exact h k (by omega)

/-- CLK_RISE writes the first stale cell before it is read (R108, R112): at position 31 none is left. -/
theorem differInStaleCells_clockRise {s : State} {b : Packet} (hk : s.bitIndex.toNat < 32)
    (hb : ∀ k, k < s.bitIndex.toNat → packetBit b k = packetBit s.bits k) :
    DifferInStaleCells (clockRise s) (clockRise { s with bits := b }) := by
  rcases clockRise_cases s with ⟨hd, hr, h⟩ | ⟨hd, hr, hs, h⟩ | ⟨hone, -⟩
  · rw [h, clockRise_guard (s := { s with bits := b }) hd hr]
    exact ⟨b, rfl, nofun⟩
  · rw [h, clockRise_unsync (s := { s with bits := b }) hd hr hs]
    exact ⟨b, rfl, hb⟩
  · rw [clockRise_write hone, clockRise_write (s := { s with bits := b }) hone]
    have hw := fun k => packetBit_setPacketBit_congr (k := k) hb s.dataLevel
    by_cases hlast : s.bitIndex.toNat = 31
    · have hbits : setPacketBit b s.bitIndex.toNat s.dataLevel =
          setPacketBit s.bits s.bitIndex.toNat s.dataLevel :=
        packet_ext fun k hk => hw k (by omega) hk
      have heq : afterWrite { s with bits := b } = afterWrite s := by
        simp only [afterWrite, hbits]
      rw [heq]
      exact .refl _
    · rw [if_neg hlast, if_neg hlast]
      refine ⟨_, rfl, fun k hk' => ?_⟩
      have hnext : k < s.bitIndex.toNat + 1 := bitIndex_succ_toNat (k := s.bitIndex) (by omega) ▸ hk'
      exact hw k (by omega) (by omega)

/-- Settles O44: every event keeps `DifferInStaleCells`; only CLK_RISE moves `bitIndex` up or reads a cell. -/
theorem staleAccumulatorCellsUnobservable : Obligations.StaleAccumulatorCellsUnobservable := by
  intro i s t b hi hk _ hb h
  obtain ⟨t', ht', b', rfl, hb'⟩ := exec_event_sim (R := DifferInStaleCells) (s' := { s with bits := b }) hi h
    rfl ⟨b, rfl, hb⟩ ⟨b, rfl, hb⟩ (fun _ => ⟨b, rfl, hb⟩) (differInStaleCells_clockRise hk hb) (.refl _)
  exact ⟨b', ht', hb'⟩

/-! ### `prevFrame` outside the button positions (R147) -/

/-- Two states that differ at most in `prevFrame`, and there not at a button's position. -/
def DifferInUnreadFrameBits (s s' : State) : Prop :=
  ∃ f : Packet, s' = { s with prevFrame := f } ∧
    ∀ k, packetBit f (s.cfg.pos k) = packetBit s.prevFrame (s.cfg.pos k)

/-- The two states may be one. -/
theorem DifferInUnreadFrameBits.refl (s : State) : DifferInUnreadFrameBits s s :=
  ⟨s.prevFrame, rfl, fun _ => rfl⟩

/-- The candidate record reads `prevFrame` at the button positions only (R133, R139). -/
theorem candidateOf_prevFrame_congr {s : State} {f : Packet} (raw : Packet)
    (hf : ∀ k, packetBit f (s.cfg.pos k) = packetBit s.prevFrame (s.cfg.pos k)) :
    candidateOf raw { s with prevFrame := f } = candidateOf raw s := by
  simp only [candidateOf, decodeButtons_congr (fun _ => rfl) hf]

/-- The handoff suppresses both records, with both frames kept, or dispatches one record for both (R147). -/
theorem differInUnreadFrameBits_handoff {s : State} {f : Packet}
    (hf : ∀ k, packetBit f (s.cfg.pos k) = packetBit s.prevFrame (s.cfg.pos k)) :
    DifferInUnreadFrameBits (handoff s) (handoff { s with prevFrame := f }) := by
  cases hm : markerMatches s.bits
  · rw [handoff_rejected hm, handoff_rejected (s := { s with prevFrame := f }) hm]
    exact ⟨f, rfl, hf⟩
  · rw [handoff_accepted hm, handoff_accepted (s := { s with prevFrame := f }) hm,
      candidateOf_prevFrame_congr s.bits hf]
    refine ⟨_, rfl, ?_⟩
    split
    · exact hf
    · exact fun _ => rfl

/-- CLK_RISE reads `prevFrame` in the handoff only (R103, R109). -/
theorem differInUnreadFrameBits_clockRise {s : State} {f : Packet}
    (hf : ∀ k, packetBit f (s.cfg.pos k) = packetBit s.prevFrame (s.cfg.pos k)) :
    DifferInUnreadFrameBits (clockRise s) (clockRise { s with prevFrame := f }) := by
  rcases clockRise_cases s with ⟨hd, hr, h⟩ | ⟨hd, hr, hs, h⟩ | ⟨hone, -⟩
  · rw [h, clockRise_guard (s := { s with prevFrame := f }) hd hr]
    exact ⟨f, rfl, hf⟩
  · rw [h, clockRise_unsync (s := { s with prevFrame := f }) hd hr hs]
    exact ⟨f, rfl, hf⟩
  · rw [clockRise_write hone, clockRise_write (s := { s with prevFrame := f }) hone]
    split
    · exact differInUnreadFrameBits_handoff (s := afterWrite s) hf
    · exact ⟨f, rfl, hf⟩

/-- Settles O45: every event keeps `DifferInUnreadFrameBits`. -/
theorem prevFrameReadOnlyAtButtonPositions : Obligations.PrevFrameReadOnlyAtButtonPositions := by
  intro i s t f hi hf h
  obtain ⟨t', ht', f', rfl, hf'⟩ := exec_event_sim (R := DifferInUnreadFrameBits)
    (s' := { s with prevFrame := f }) hi h rfl ⟨f, rfl, hf⟩ ⟨f, rfl, hf⟩ (fun _ => ⟨f, rfl, hf⟩)
    (differInUnreadFrameBits_clockRise hf) (.refl _)
  exact ⟨f', ht', hf'⟩

end Sys2Proof.Machine
end

section
/-!
PROOFS. The rules of 20_memory.md: the byte and 24-bit views of a record (R56, R82), the idempotent events (R59),
the order of events (R61), the event placed from outside (R83), and the outputs of one step (R62).
-/

namespace Sys2Proof.Machine

/-! ### The 24-bit view of a record (R56) -/

/-- The two halves of a concatenation are determined by it. -/
theorem append_eq_append_iff {m n : Nat} {a b : BitVec m} {c d : BitVec n} :
    a ++ c = b ++ d ↔ a = b ∧ c = d := by
  refine ⟨fun h => ?_, fun ⟨ha, hc⟩ => ha ▸ hc ▸ rfl⟩
  have hc : c = d := by simpa [BitVec.setWidth_append_eq_right] using congrArg (BitVec.setWidth n) h
  exact ⟨(BitVec.append_left_inj d).mp (hc ▸ h), hc⟩

/-- The 24-bit view determines the three bytes (R56). -/
theorem recordOutput_eq_of_recordWord24_eq {r q : OutputRecord} (h : recordWord24 r = recordWord24 q) :
    recordOutput r = recordOutput q := by
  obtain ⟨h21, h0⟩ := append_eq_append_iff.mp h
  obtain ⟨h2, h1⟩ := append_eq_append_iff.mp h21
  rw [recordOutput, recordOutput, h0, h1, h2]

/-- Settles O32: the bytes determine the record, and the 24-bit view determines the bytes. -/
theorem recordEncodingInjective : Obligations.RecordEncodingInjective :=
  fun _ _ => ⟨fun h => recordOutput_injective h,
    fun h => recordOutput_injective (recordOutput_eq_of_recordWord24_eq h)⟩

/-! ### The outputs of a step (R62, R143, R148) -/

/-- What one step may emit, in R143's order. -/
def RecordAtMostAfterHaptic (os : List Output) : Prop :=
  os = [] ∨ ∃ r, os = [recordOutput r] ∨ os = [.hapticFire, recordOutput r]

/-- A position that is, if even, the one last evaluated fires no pulse (R137). -/
theorem hapticFires_eq_false {w : Byte} {pos : Option Byte} (h : wheelEven w = true → pos = some w) :
    hapticFires w pos = false := by
  refine Bool.eq_false_iff.mpr fun hfire => ?_
  obtain ⟨hne, heven⟩ := (hapticFires_iff w pos).mp hfire
  exact hne (h ((wheelEven_iff w).mpr heven))

/-- The handoff's outputs (R143): by R34 item 6 a suppressed record has no pulse before it (R148). -/
theorem handoff_outputs {s : State}
    (heven : ∀ r, s.lastRecord = some r → wheelEven r.wheel = true → s.hapticPos = some r.wheel) :
    ∃ os, (handoff s).out = s.out ++ os ∧ RecordAtMostAfterHaptic os := by
  cases hm : markerMatches s.bits
  · rw [handoff_rejected hm]
    exact ⟨[], (List.append_nil _).symm, .inl rfl⟩
  · rw [handoff_accepted hm]
    refine ⟨_, List.append_assoc _ _ _, ?_⟩
    by_cases hd : s.lastRecord = some (candidateOf s.bits s)
    · have hfire : hapticFires (wheelField s.bits) s.hapticPos = false :=
        hapticFires_eq_false (heven _ hd)
      simp [hd, hfire, RecordAtMostAfterHaptic]
    · refine .inr ⟨candidateOf s.bits s, ?_⟩
      cases hapticFires (wheelField s.bits) s.hapticPos <;> simp [hd]

/-- The outputs of a CLK_RISE are those of its handoff, if it makes one. -/
theorem clockRise_outputs {s : State} (hs : Inv s) :
    ∃ os, (clockRise s).out = s.out ++ os ∧ RecordAtMostAfterHaptic os :=
  clockRise_rec (P := fun t => ∃ os, t.out = s.out ++ os ∧ RecordAtMostAfterHaptic os)
    (fun _ _ _ _ => ⟨[], (List.append_nil _).symm, .inl rfl⟩)
    (handoff_outputs (s := afterWrite s) hs.even_haptic)

/-- An event that is no CLK_RISE emits nothing (R15, R101, R102, R176, R200). -/
theorem exec_event_out_eq {i : Instr} {s t : State} (hi : i.isEvent = true) (hne : i ≠ .clkRise)
    (h : exec i s = .next t) : t.out = s.out := by
  rcases exec_event_cases hi h with
    ⟨-, rfl⟩ | ⟨-, ⟨-, rfl⟩ | ⟨-, rfl⟩ | ⟨-, rfl⟩ | ⟨rfl, -⟩ | ⟨-, rfl⟩⟩
  · rfl
  · rfl
  · rfl
  · rfl
  · exact absurd rfl hne
  · rfl

/-- A CLK_RISE emits nothing, a RECORD, or a pulse and a RECORD (R143, R176). -/
theorem exec_clkRise_outputs {s t : State} (hs : Inv s) (h : exec .clkRise s = .next t) :
    ∃ os, t.out = s.out ++ os ∧ RecordAtMostAfterHaptic os := by
  obtain rfl : s.whenConfigured clockRise = t := Host.Outcome.next.inj h
  rcases s.whenConfigured_cases clockRise with ⟨-, hw⟩ | ⟨-, hw⟩ <;> rw [hw]
  · exact clockRise_outputs hs
  · exact ⟨[], (List.append_nil _).symm, .inl rfl⟩

/-- The word of a decoded row is the word it was decoded from (R72). -/
theorem encode_decode : ∀ w, encode (decode w) = some w := by decide

/-- Settles O37: a step that waits, or runs an event other than CLK_RISE, emits nothing, and CLK_RISE has one
word. -/
theorem stepOutputsHapticOnlyBeforeRecord : Obligations.StepOutputsHapticOnlyBeforeRecord := by
  intro s t hs h
  rcases step_cases h with ⟨-, rfl⟩ | ⟨w, rest, hp, hi, h⟩
  · exact ⟨[], (List.append_nil _).symm, nofun, .inl rfl⟩
  · by_cases hw : decode w = .clkRise
    · have hs' : Inv { s with pending := rest } := inv_of_registers hs rfl
      obtain ⟨os, hout, hos⟩ := exec_clkRise_outputs hs' (hw ▸ h)
      obtain rfl : 0b011#3 = w := Option.some.inj ((congrArg encode hw).symm.trans (encode_decode w))
      exact ⟨os, hout, fun _ => ⟨rest, hp⟩, hos⟩
    · have hout := exec_event_out_eq hi hw h
      exact ⟨[], hout.trans (List.append_nil _).symm, nofun, .inl rfl⟩

/-! ### Events to come do not matter to a step (R61) -/

/-- The handoff leaves the events to come out of account. -/
theorem handoff_with_pending (s : State) (p : List EventWord) :
    handoff { s with pending := p } = { handoff s with pending := p } := by
  cases hm : markerMatches s.bits
  · rw [handoff_rejected hm, handoff_rejected (s := { s with pending := p }) hm]
  · rw [handoff_accepted hm, handoff_accepted (s := { s with pending := p }) hm]
    rfl

/-- CLK_RISE leaves the events to come out of account. -/
theorem clockRise_with_pending (s : State) (p : List EventWord) :
    clockRise { s with pending := p } = { clockRise s with pending := p } := by
  rcases clockRise_cases s with ⟨hd, hr, h⟩ | ⟨hd, hr, hs, h⟩ | ⟨hone, -⟩
  · rw [h, clockRise_guard (s := { s with pending := p }) hd hr]
  · rw [h, clockRise_unsync (s := { s with pending := p }) hd hr hs]
  · rw [clockRise_write hone, clockRise_write (s := { s with pending := p }) hone]
    split
    · exact handoff_with_pending (afterWrite s) p
    · rfl

/-- An event runs alike whatever events are to come, and leaves them to come. -/
theorem exec_event_with_pending {i : Instr} {s t : State} (hi : i.isEvent = true) (h : exec i s = .next t)
    (p : List EventWord) : exec i { s with pending := p } = .next { t with pending := p } := by
  obtain ⟨_, ht, rfl⟩ := exec_event_sim (s' := { s with pending := p })
    (R := fun s s' => s' = { s with pending := p }) hi h rfl rfl rfl (fun _ => rfl) (clockRise_with_pending s p) rfl
  exact ht

/-! ### Steps and deliveries (R61) -/

/-- A step that answers a next state leaves the remaining steps to it. -/
theorem steps_succ {s t : State} (h : step s = .next t) (n : Nat) : steps (n + 1) s = steps n t := by
  simp only [steps, h]

/-- Delivering a word runs the row it decodes to (R61). -/
theorem deliver_cons {s t : State} {w : EventWord} (h : exec (decode w) s = .next t) (ws : List EventWord) :
    deliver (w :: ws) s = deliver ws t := by
  have hstep : step { s with pending := w :: s.pending } = .next t :=
    (step_of_pending_cons rfl).trans h
  simp only [deliver, hstep]

/-- Settles O51, by induction on the events: a step takes the first word, and what it does is what delivering that
word does. -/
theorem stepsAreFoldOverEvents : Obligations.StepsAreFoldOverEvents := by
  intro ws
  induction ws with
  | nil => exact fun s => ⟨rfl, s, rfl, rfl⟩
  | cons w ws ih =>
    intro s
    obtain ⟨t, ht⟩ := exec_next (decode w) s
    have hpending := (exec_event_cfg_pending (decode_isEvent w) ht).2
    have hstep : step { s with pending := w :: ws ++ s.pending } = .next { t with pending := ws ++ t.pending } := by
      rw [hpending]
      exact (step_of_pending_cons rfl).trans (exec_event_with_pending (decode_isEvent w) ht _)
    obtain ⟨hfold, u, hu, hup⟩ := ih t
    rw [deliver_cons ht]
    exact ⟨(steps_succ hstep ws.length).trans hfold, u, hu, hup.trans hpending⟩

/-! ### An event placed from outside (R72, R83, log 4) -/

/-- The low bits of a number that decodes to a row are the 3-bit word of that row (R83). -/
theorem lt_and_decode_of_decodeTableWord {nbits w : Nat} {i : Instr} (h : decodeTableWord nbits w = some i) :
    w % 2 ^ nbits < 8 ∧ decode (BitVec.ofNat 3 (w % 2 ^ nbits)) = i := by
  unfold decodeTableWord decodeNumber eventWordOf at h
  split at h
  · next hn => exact ⟨hn, Option.some.inj h⟩
  · cases h

/-- Settles O4: a number that decodes to a row is an event word, and the next step takes it. -/
theorem placedWordRunsNext : Obligations.PlacedWordRunsNext := by
  intro s nbits w i h
  obtain ⟨hn, rfl⟩ := lt_and_decode_of_decodeTableWord h
  rw [State.withFetchWord, placeEvent_lt hn]
  exact step_of_pending_cons rfl

/-! ### Idempotent events (R59) -/

/-- The configuration check repeats its verdict after an event that keeps the configuration, so the event is
idempotent if its effect is (R11, R59). -/
theorem State.whenConfigured_idem {s : State} {f : State → State} (hcfg : (f s).cfg = s.cfg)
    (hf : f (f s) = f s) : (s.whenConfigured f).whenConfigured f = s.whenConfigured f := by
  cases hv : s.cfg.valid
  · rw [s.whenConfigured_invalid f hv]
    exact s.refuse.whenConfigured_invalid f hv
  · rw [s.whenConfigured_valid f hv, whenConfigured_valid f (hcfg ▸ hv), hf]

/-- A row that runs an idempotent effect under the check is idempotent (R59). -/
theorem exec_whenConfigured_idem {i : Instr} {f : State → State} {s t : State}
    (hexec : ∀ s, exec i s = .next (s.whenConfigured f)) (hcfg : (f s).cfg = s.cfg) (hf : f (f s) = f s)
    (h : exec i s = .next t) : exec i t = .next t := by
  obtain rfl := Host.Outcome.next.inj ((hexec s).symm.trans h)
  rw [hexec, State.whenConfigured_idem hcfg hf]

/-- Settles O8: a DATA event writes the level it has written, and of what a RESET writes only the draw is new. -/
theorem dataAndResetIdempotent : Obligations.DataAndResetIdempotent := by
  intro s t u
  refine ⟨fun i hi h => ?_, fun ht hu => ?_⟩
  · rcases hi with rfl | rfl
    · exact exec_whenConfigured_idem (fun _ => rfl) rfl rfl h
    · exact exec_whenConfigured_idem (fun _ => rfl) rfl rfl h
  · obtain rfl : s.whenConfigured resetEvent = t := Host.Outcome.next.inj ht
    obtain rfl : (s.whenConfigured resetEvent).whenConfigured resetEvent = u := Host.Outcome.next.inj hu
    cases hv : s.cfg.valid
    · rw [s.whenConfigured_invalid _ hv, s.refuse.whenConfigured_invalid _ hv]
      exact ⟨rfl, rfl, rfl, rfl, rfl⟩
    · rw [s.whenConfigured_valid _ hv, (resetEvent s).whenConfigured_valid _ hv]
      exact ⟨rfl, rfl, rfl, rfl, rfl⟩

end Sys2Proof.Machine
end

section
/-!
PROOFS. The rules of 30_encoding.md: the event words (R72, R74, R75, R83), what INTERPRET reads of a packet (R77,
R80), the bytes of an emitted record (R82) and the scripts of bits (R85).
-/

namespace Sys2Proof.Machine

/-! ### The event words (R72, R83) -/

/-- Settles O1: the table of R72, row by row. -/
theorem eventWordsDecodeAsTabled : Obligations.EventWordsDecodeAsTabled :=
  ⟨rfl, rfl, rfl, rfl, rfl, rfl, rfl, rfl⟩

/-- A number with a bit above bit 2 is rejected by name (R83). -/
theorem decodeNumber_of_ge {n : Nat} (h : 8 ≤ n) : decodeNumber n = .error .notAnEventWord := by
  rw [decodeNumber, eventWordOf, if_neg (Nat.not_lt.mpr h)]
  rfl

/-- Settles O2: each of encoder and decoder undoes the other, and a wide number never reaches the decoder. -/
theorem decodeEncodeRoundTrip : Obligations.DecodeEncodeRoundTrip :=
  ⟨fun _ _ => decode_of_encode, encode_decode, fun _ => decodeNumber_of_ge⟩

/-! ### The reserved words and CLK_FALL (R74, R75) -/

/-- A reserved row sets the refusal mark, whatever the configuration (R74, R176). -/
theorem exec_reserved {i : Instr} (hi : i.isReserved = true) (s : State) :
    exec i s = .next { s with refusalMark := true } := by
  cases i <;> cases hi <;> rfl

/-- Settles O9: the three words decode to reserved rows, and a reserved row is a refusal. -/
theorem reservedWordsSetRefusalMark : Obligations.ReservedWordsSetRefusalMark :=
  ⟨rfl, rfl, rfl, fun s => ⟨exec_reserved rfl s, exec_reserved rfl s, exec_reserved rfl s⟩⟩

/-- A falling clock edge does nothing (R75, R102). -/
theorem exec_clkFall {s : State} (hv : s.cfg.valid = true) : exec .clkFall s = .next s :=
  congrArg Host.Outcome.next (State.whenConfigured_valid _ hv)

/-- Settles O7: `010` is CLK_FALL, which is not reserved and passes the configuration check with no effect. -/
theorem clkFallDoesNothing : Obligations.ClkFallDoesNothing :=
  ⟨rfl, rfl, fun _ => exec_clkFall⟩

/-! ### The marker (R77) -/

/-- The mask keeps the first five cells (R77). -/
theorem packetBit_and_markerMask (raw : Packet) {i : Nat} (hi : i < 32) :
    packetBit (raw &&& markerMask) i = (decide (i < 5) && packetBit raw i) := by
  have hmask : ∀ i < 32, packetBit markerMask i = decide (i < 5) := by decide
  rw [← hmask i hi, Bool.and_comm]
  exact BitVec.getLsbD_and

/-- The marker is in the first five samples, in the order they arrive (R77, decision D7). -/
theorem markerMatches_iff_samples (raw : Packet) :
    markerMatches raw = true ↔
      packetBit raw 0 = false ∧ packetBit raw 1 = true ∧ packetBit raw 2 = true ∧
        packetBit raw 3 = false ∧ packetBit raw 4 = true := by
  have hvalue : ∀ i < 32, packetBit markerValue i = decide (i = 1 ∨ i = 2 ∨ i = 4) := by decide
  rw [markerMatches, beq_iff_eq]
  constructor
  · intro h
    have hcell : ∀ i < 5, packetBit raw i = decide (i = 1 ∨ i = 2 ∨ i = 4) := fun i hi => by
      rw [← hvalue i (by omega), ← h, packetBit_and_markerMask raw (by omega)]
      simp [hi]
    exact ⟨hcell 0 (by decide), hcell 1 (by decide), hcell 2 (by decide), hcell 3 (by decide),
      hcell 4 (by decide)⟩
  · rintro ⟨h0, h1, h2, h3, h4⟩
    refine packet_ext fun i hi => ?_
    rw [packetBit_and_markerMask raw hi, hvalue i hi]
    by_cases hi5 : i < 5
    · interval_cases i <;> simp [*]
    · simp only [hi5, decide_false, Bool.false_and]
      exact (decide_eq_false (by omega)).symm

/-- Settles O26: VALIDATE returns exactly when the marker fails, and the marker is those five samples. -/
theorem validateTestsFirstFiveSamples : Obligations.ValidateTestsFirstFiveSamples := by
  intro raw s
  refine ⟨!markerMatches raw, rfl, ?_, ?_⟩
  · rw [Bool.not_eq_false', markerMatches_iff]
  · rw [Bool.not_eq_false', markerMatches_iff_samples]

/-! ### The unassigned bits of a packet (R80) -/

/-- Packets with the same fields pass the marker check alike (R77). -/
theorem markerMatches_congr {c : Config} {raw raw' : Packet} (h : sameFields c raw raw') :
    markerMatches raw' = markerMatches raw := by
  obtain ⟨hmarker, -⟩ := h
  rw [markerMatches, markerMatches, hmarker]

/-- Packets with the same fields give one candidate record (R133, R136, R139). -/
theorem candidateOf_congr {s : State} {raw raw' : Packet} (h : sameFields s.cfg raw raw') :
    candidateOf raw' s = candidateOf raw s := by
  obtain ⟨-, hwheel, hbuttons⟩ := h
  rw [candidateOf, candidateOf, hwheel,
    decodeButtons_congr (raw := raw) (fun b => (hbuttons b).symm) fun _ => rfl]

/-- Settles O47: the marker decides between the cases of INTERPRET, and the outputs and the two memories depend on
the wheel field and the candidate record only. -/
theorem unassignedPacketBitsIgnored : Obligations.UnassignedPacketBitsIgnored := by
  intro s raw raw' h
  have hmarker := markerMatches_congr h
  have hcandidate := candidateOf_congr h
  obtain ⟨-, hwheel, -⟩ := h
  cases hm : markerMatches raw with
  | false =>
    rw [interpret_rejected s hm, interpret_rejected s (hmarker.trans hm)]
    exact ⟨rfl, rfl, rfl⟩
  | true =>
    rw [interpret_accepted s hm, interpret_accepted s (hmarker.trans hm), hcandidate, hwheel]
    exact ⟨rfl, rfl, rfl⟩

/-! ### The bytes of an emitted record (R82) -/

/-- Byte 0 of a candidate is the sentinel, or the position of a button (R81, R82). -/
theorem recordByte0_candidateOf (raw : Packet) (s : State) :
    recordByte0 (candidateOf raw s) = sentinel ∨
      ∃ b, recordByte0 (candidateOf raw s) = BitVec.ofNat 8 (s.cfg.pos b) := by
  cases hslot : decodeButtons s.cfg raw s.prevFrame with
  | none => exact .inl (by simp [recordByte0, candidateOf, hslot])
  | some t =>
    obtain ⟨b, -, hid, -⟩ := decodeButtons_some hslot
    refine .inr ⟨b, ?_⟩
    simp only [recordByte0, candidateOf, hslot]
    rw [← hid, BitVec.ofNat_toNat]

/-- Byte 1 of a record is 0 or 1 (R81, R82). -/
theorem recordByte1_eq_zero_or_one (r : OutputRecord) : recordByte1 r = 0#8 ∨ recordByte1 r = 1#8 := by
  unfold recordByte1
  split
  · exact .inl rfl
  · exact (ite_eq_or_eq _ _ _).symm

/-- A candidate record has legal bytes (R82). -/
theorem legalOutput_candidateOf (raw : Packet) (s : State) :
    legalOutput s.cfg (recordOutput (candidateOf raw s)) = true := by
  have h0 := recordByte0_candidateOf raw s
  have h1 := recordByte1_eq_zero_or_one (candidateOf raw s)
  simpa [legalOutput, recordOutput, Config.positions, mem_order, h1] using h0

/-- Only legal outputs leave between two states (R82). -/
def EmitsLegal (s t : State) : Prop :=
  ∃ os, t.out = s.out ++ os ∧ ∀ o ∈ os, legalOutput s.cfg o = true

/-- With nothing emitted, nothing illegal is. -/
theorem EmitsLegal.of_out_eq {s t : State} (h : t.out = s.out) : EmitsLegal s t :=
  ⟨[], h.trans (List.append_nil _).symm, nofun⟩

/-- The handoff emits at most a pulse and its candidate record (R143). -/
theorem emitsLegal_handoff (s : State) : EmitsLegal s (handoff s) := by
  cases hm : markerMatches s.bits
  · rw [handoff_rejected hm]
    exact .of_out_eq rfl
  · rw [handoff_accepted hm]
    refine ⟨_, List.append_assoc _ _ _, fun o ho => ?_⟩
    rcases List.mem_append.mp ho with ho | ho
    · obtain ⟨-, rfl⟩ : _ ∧ o = .hapticFire := by simpa using ho
      rfl
    · obtain ⟨-, rfl⟩ : _ ∧ o = recordOutput (candidateOf s.bits s) := by simpa using ho
      exact legalOutput_candidateOf s.bits s

/-- Of the events only CLK_RISE emits, and it does so through the handoff. -/
theorem exec_event_emitsLegal {i : Instr} {s t : State} (hi : i.isEvent = true) (h : exec i s = .next t) :
    EmitsLegal s t := by
  rcases exec_event_shape hi h with ⟨_, _, rfl⟩ | rfl | ⟨-, rfl⟩
  · exact .of_out_eq rfl
  · exact clockRise_rec (P := EmitsLegal s) (fun _ _ _ _ => .of_out_eq rfl) (emitsLegal_handoff (afterWrite s))
  · exact .of_out_eq rfl

/-- Settles O39: a step that waits emits nothing, and one that runs an event emits what the event does. -/
theorem emittedRecordsAreLegal : Obligations.EmittedRecordsAreLegal := by
  intro s t h
  rcases step_cases h with ⟨-, rfl⟩ | ⟨w, rest, -, hi, h⟩
  · exact EmitsLegal.of_out_eq rfl
  · exact exec_event_emitsLegal (s := { s with pending := rest }) hi h

/-! ### One bit of a script (R84, R85) -/

/-- The state after `BIT b` (R85): the level latched, then sampled. -/
def State.sampleBit (b : Bool) (s : State) : State := clockRise { s with dataLevel := b }

@[simp] theorem State.sampleBit_cfg (b : Bool) (s : State) : (s.sampleBit b).cfg = s.cfg :=
  clockRise_cfg _

@[simp] theorem State.sampleBit_oneRunLength (b : Bool) (s : State) :
    (s.sampleBit b).oneRunLength = if b then saturatingSucc s.oneRunLength else 0#8 :=
  clockRise_oneRunLength _

/-- Sampling bits leaves the configuration (R32). -/
theorem iterate_sampleBit_cfg (b : Bool) (n : Nat) (s : State) :
    ((State.sampleBit b)^[n] s).cfg = s.cfg := by
  induction n with
  | zero => rfl
  | succ n ih => rw [Function.iterate_succ_apply', State.sampleBit_cfg, ih]

/-- The DATA event of a bit latches the bit (R84, R101). -/
theorem exec_scriptBit_data {s : State} (hv : s.cfg.valid = true) (b : Bool) :
    exec (decode (if b then scriptD1 else scriptD0)) s = .next { s with dataLevel := b } := by
  cases b
  · exact congrArg Host.Outcome.next (State.whenConfigured_valid _ hv)
  · exact congrArg Host.Outcome.next (State.whenConfigured_valid _ hv)

/-- Delivering `BIT b` runs DATA, CLK_RISE and CLK_FALL in turn (R85). -/
theorem deliver_scriptBit_append {s : State} (hv : s.cfg.valid = true) (b : Bool) (ws : List EventWord) :
    deliver (scriptBit b ++ ws) s = deliver ws (s.sampleBit b) := by
  have hrise : exec (decode scriptC1) { s with dataLevel := b } = .next (s.sampleBit b) :=
    congrArg Host.Outcome.next (State.whenConfigured_valid clockRise hv)
  have hfall : exec (decode scriptC0) (s.sampleBit b) = .next (s.sampleBit b) :=
    exec_clkFall (by simpa using hv)
  calc deliver (scriptBit b ++ ws) s
    _ = deliver (scriptC1 :: scriptC0 :: ws) { s with dataLevel := b } :=
        deliver_cons (exec_scriptBit_data hv b) _
    _ = deliver (scriptC0 :: ws) (s.sampleBit b) := deliver_cons hrise _
    _ = deliver ws (s.sampleBit b) := deliver_cons hfall _

/-- Delivering a run of equal bits samples that bit as many times (R85). -/
theorem deliver_scriptRun_append {s : State} (hv : s.cfg.valid = true) (b : Bool) (n : Nat) (ws : List EventWord) :
    deliver (scriptRun b n ++ ws) s = deliver ws ((State.sampleBit b)^[n] s) := by
  induction n generalizing s with
  | zero => rfl
  | succ n ih =>
    rw [scriptRun, List.append_assoc, deliver_scriptBit_append hv, ih (by simpa using hv),
      Function.iterate_succ_apply]

/-- A run of equal bits, with nothing to come after it (R85). -/
theorem deliver_scriptRun {s : State} (hv : s.cfg.valid = true) (b : Bool) (n : Nat) :
    deliver (scriptRun b n) s = .next ((State.sampleBit b)^[n] s) := by
  simpa [deliver] using deliver_scriptRun_append hv b n []

/-! ### Runs of ones and of zeros (R85, R105 to R109) -/

/-- Ones count, up to the saturation (R105, decision D5). -/
theorem sampleOnes_oneRunLength (s : State) (n : Nat) :
    ((State.sampleBit true)^[n] s).oneRunLength.toNat = min (s.oneRunLength.toNat + n) 255 := by
  induction n with
  | zero =>
    have := s.oneRunLength.isLt
    simp only [Function.iterate_zero, id_eq]
    omega
  | succ n ih =>
    rw [Function.iterate_succ_apply', State.sampleBit_oneRunLength, if_pos rfl, saturatingSucc_toNat]
    omega

/-- A run of ones as long as the threshold leaves the assembler unsynchronised at position 0 (R106, R118). -/
theorem sampleOnes_desynchronises (s : State) {n : Nat} (hn : 32 ≤ n) :
    ((State.sampleBit true)^[n] s).synchronized = false ∧ ((State.sampleBit true)^[n] s).bitIndex = 0#8 := by
  obtain ⟨m, rfl⟩ := Nat.exists_eq_add_of_le' (Nat.one_le_of_lt hn)
  have hcount := sampleOnes_oneRunLength s m
  rw [Function.iterate_succ_apply', State.sampleBit, clockRise_guard rfl (by simp only [hcount]; omega)]
  exact ⟨rfl, rfl⟩

@[simp] theorem handoff_synchronized (s : State) : (handoff s).synchronized = s.synchronized :=
  congrArg (·.synchronized) (handoff_frame s)

/-- A zero is always written (R107). -/
theorem sampleZero_eq (s : State) :
    s.sampleBit false =
      if s.bitIndex.toNat = 31 then handoff (afterWrite { s with dataLevel := false })
      else afterWrite { s with dataLevel := false } :=
  clockRise_write nofun

/-- A zero synchronises (R107). -/
@[simp] theorem sampleZero_synchronized (s : State) : (s.sampleBit false).synchronized = true := by
  rw [sampleZero_eq]
  split
  · exact handoff_synchronized _
  · rfl

/-- A zero moves one position on, around the window (R108, R109). -/
theorem sampleZero_bitIndex {s : State} (hs : s.bitIndex.toNat < 32) :
    (s.sampleBit false).bitIndex.toNat = (s.bitIndex.toNat + 1) % 32 := by
  rw [sampleZero_eq]
  split
  · next hk => rw [handoff_bitIndex, hk]; rfl
  · next hk =>
    have hk' : s.bitIndex.toNat ≤ 30 := by omega
    exact (bitIndex_succ_toNat hk').trans (Nat.mod_eq_of_lt (by omega)).symm

/-- Zeros move as many positions on, around the window (R108, R109). -/
theorem sampleZeros_bitIndex {s : State} (hs : s.bitIndex.toNat < 32) (n : Nat) :
    ((State.sampleBit false)^[n] s).bitIndex.toNat = (s.bitIndex.toNat + n) % 32 := by
  induction n with
  | zero => exact (Nat.mod_eq_of_lt hs).symm
  | succ n ih =>
    rw [Function.iterate_succ_apply', sampleZero_bitIndex (by omega), ih]
    omega

/-- After a run of zeros the assembler is synchronised and no ones are counted (R107). -/
theorem sampleZeros_synchronises (s : State) {n : Nat} (hn : 0 < n) :
    ((State.sampleBit false)^[n] s).synchronized = true ∧
      ((State.sampleBit false)^[n] s).oneRunLength = 0#8 := by
  obtain ⟨m, rfl⟩ := Nat.exists_eq_add_of_le' hn
  rw [Function.iterate_succ_apply']
  exact ⟨sampleZero_synchronized _, State.sampleBit_oneRunLength false _⟩

/-- Delivering ALIGN samples 32 ones and then 32 zeros (R85). -/
theorem deliver_scriptAlign {s : State} (hv : s.cfg.valid = true) :
    deliver scriptAlign s = .next ((State.sampleBit false)^[32] ((State.sampleBit true)^[32] s)) := by
  have hv' : ((State.sampleBit true)^[32] s).cfg.valid = true := by rwa [iterate_sampleBit_cfg]
  rw [scriptAlign, scriptOnes, scriptZeros, deliver_scriptRun_append hv, deliver_scriptRun hv']

/-- Settles O53: the ones bring every state to position 0, and from there the zeros fill one window and leave the
assembler synchronised. -/
theorem alignSynchronisesFromEveryState : Obligations.AlignSynchronisesFromEveryState := by
  intro s hv
  obtain ⟨-, hstart⟩ := sampleOnes_desynchronises s (n := 32) le_rfl
  have hindex := sampleZeros_bitIndex (s := (State.sampleBit true)^[32] s) (by rw [hstart]; decide) 32
  obtain ⟨hsync, hrun⟩ := sampleZeros_synchronises ((State.sampleBit true)^[32] s) (n := 32) (by decide)
  rw [hstart] at hindex
  exact ⟨_, deliver_scriptAlign hv, hsync, BitVec.eq_of_toNat_eq hindex, hrun⟩

end Sys2Proof.Machine
end

section
/-!
PROOFS. The rules of 40_assembler.md: the DATA events (R101), CLK_RISE as whole next states (R105 to R111), the run
count above the threshold (R114), and the assembly of runs and of packets (R117, R118).
-/

namespace Sys2Proof.Machine

/-! ### The DATA events (R101) -/

/-- Settles O6: DATA_LOW and DATA_HIGH begin `BIT 0` and `BIT 1`, and the DATA event of a bit latches it (R85). -/
theorem dataEventsLatchLevel : Obligations.DataEventsLatchLevel :=
  fun _ hv => ⟨exec_scriptBit_data hv false, exec_scriptBit_data hv true⟩

/-! ### CLK_RISE without a write (R105, R106) -/

/-- CLK_RISE passes the configuration check (R11, R103). -/
theorem exec_clkRise {s : State} (hv : s.cfg.valid = true) : exec .clkRise s = .next (clockRise s) :=
  congrArg Host.Outcome.next (State.whenConfigured_valid _ hv)

/-- The saturating increment as a word (R105). -/
theorem saturatingSucc_eq_ofNat (c : Byte) : saturatingSucc c = BitVec.ofNat 8 (min (c.toNat + 1) 255) := by
  refine BitVec.eq_of_toNat_eq ?_
  rw [saturatingSucc_toNat, BitVec.toNat_ofNat]
  omega

/-- Below the threshold the increment does not saturate (R105). -/
theorem saturatingSucc_of_le {c : Byte} (h : c.toNat ≤ 30) : saturatingSucc c = BitVec.ofNat 8 (c.toNat + 1) := by
  rw [saturatingSucc_eq_ofNat, min_eq_left (by omega)]

/-- Settles O17: the guard's row of R111's table, with the count as a number. -/
theorem clkRiseGuardDesynchronises : Obligations.ClkRiseGuardDesynchronises := by
  intro s hv hd hr
  rw [exec_clkRise hv, clockRise_guard hd hr, saturatingSucc_eq_ofNat]

/-- Settles O18: the unsynchronised row of R111's table, with the count as a number. -/
theorem clkRiseUnsynchronisedOneCounts : Obligations.ClkRiseUnsynchronisedOneCounts := by
  intro s hv hd hr hs
  rw [exec_clkRise hv, clockRise_unsync hd hr hs, saturatingSucc_of_le hr]

/-! ### CLK_RISE with a write (R107 to R110) -/

/-- The next CLK_RISE writes its sample: a zero always, a one if it finds the assembler synchronised and stays below
the threshold (R106 to R108). -/
def State.Writes (s : State) : Prop :=
  s.dataLevel = true → s.synchronized = true ∧ s.oneRunLength.toNat ≤ 30

/-- A zero is written in every state (R107, decision D4). -/
theorem State.writes_of_zero {s : State} (hd : s.dataLevel = false) : s.Writes :=
  fun h => absurd (hd.symm.trans h) Bool.false_ne_true

section Write

variable {s : State} (hw : s.Writes)
include hw

/-- The assembler after a written sample, with position and count as numbers (R105, R108). -/
theorem afterWrite_eq :
    afterWrite s =
      { s with
        bits := setPacketBit s.bits s.bitIndex.toNat s.dataLevel
        bitIndex := BitVec.ofNat 8 (s.bitIndex.toNat + 1)
        synchronized := true
        oneRunLength := if s.dataLevel then BitVec.ofNat 8 (s.oneRunLength.toNat + 1) else 0#8 } := by
  have hindex : s.bitIndex + 1#8 = BitVec.ofNat 8 (s.bitIndex.toNat + 1) := by simp [BitVec.ofNat_add]
  have hrun : (if s.dataLevel then saturatingSucc s.oneRunLength else 0#8) =
      if s.dataLevel then BitVec.ofNat 8 (s.oneRunLength.toNat + 1) else 0#8 :=
    ite_congr rfl (fun hd => saturatingSucc_of_le (hw hd).2) fun _ => rfl
  rw [afterWrite, hindex, hrun]

/-- Inside the window nothing is handed off (R108). -/
theorem clockRise_inside (hk : s.bitIndex.toNat ≤ 30) : clockRise s = afterWrite s := by
  rw [clockRise_write hw, if_neg (by omega)]

/-- The last cell's write hands the window off (R109). -/
theorem clockRise_last (hk : s.bitIndex.toNat = 31) : clockRise s = handoff (afterWrite s) := by
  rw [clockRise_write hw, if_pos hk]

/-- The sample is in its cell after the step, handed off or not (R108, R110). -/
theorem clockRise_bits : (clockRise s).bits = setPacketBit s.bits s.bitIndex.toNat s.dataLevel := by
  rw [clockRise_write hw]
  split
  · exact handoff_bits _
  · rfl

/-- A step that writes leaves the assembler synchronised, handed off or not (R107, R110). -/
theorem clockRise_synchronized : (clockRise s).synchronized = true := by
  rw [clockRise_write hw]
  split
  · exact handoff_synchronized _
  · rfl

/-- A step that writes moves one position on, around the window (R108, R109). -/
theorem clockRise_bitIndex (hk : s.bitIndex.toNat < 32) :
    (clockRise s).bitIndex.toNat = (s.bitIndex.toNat + 1) % 32 := by
  by_cases hlast : s.bitIndex.toNat = 31
  · rw [clockRise_last hw hlast, handoff_bitIndex, hlast]
    rfl
  · have hk' : s.bitIndex.toNat ≤ 30 := by omega
    rw [clockRise_inside hw hk', Nat.mod_eq_of_lt (by omega)]
    exact bitIndex_succ_toNat hk'

/-- The write at position 31 hands off the window whose cells the statements give (R109). -/
theorem exec_clkRise_last {raw : Packet} (hv : s.cfg.valid = true) (hk : s.bitIndex.toNat = 31)
    (hraw : ∀ i, i < 32 → packetBit raw i = if i = 31 then s.dataLevel else packetBit s.bits i) :
    exec .clkRise s = .next (handoff
      { s with
        bits := raw
        bitIndex := BitVec.ofNat 8 (s.bitIndex.toNat + 1)
        synchronized := true
        oneRunLength := if s.dataLevel then BitVec.ofNat 8 (s.oneRunLength.toNat + 1) else 0#8 }) := by
  have hwindow : setPacketBit s.bits s.bitIndex.toNat s.dataLevel = raw :=
    (setPacketBit_eq_iff _ _ _ _).mpr (hk ▸ hraw)
  rw [exec_clkRise hv, clockRise_last hw hk, afterWrite_eq hw, hwindow]

end Write

/-- Settles O19: `afterWrite`, for a synchronised assembler and a one. -/
theorem clkRiseWritesOne : Obligations.ClkRiseWritesOne := by
  intro s hv hd hr hs hk
  have hw : s.Writes := fun _ => ⟨hs, hr⟩
  refine ⟨_, fun i hi => packetBit_setPacketBit s.bits s.bitIndex.toNat true hi, ?_⟩
  rw [exec_clkRise hv, clockRise_inside hw hk, afterWrite_eq hw, hd, if_pos rfl, ← hs]

/-- Settles O20: `afterWrite`, for a zero. -/
theorem clkRiseZeroSynchronisesAndIsWritten : Obligations.ClkRiseZeroSynchronisesAndIsWritten := by
  intro s hv hd hk
  have hw : s.Writes := State.writes_of_zero hd
  refine ⟨_, fun i hi => packetBit_setPacketBit s.bits s.bitIndex.toNat false hi, ?_⟩
  rw [exec_clkRise hv, clockRise_inside hw hk, afterWrite_eq hw, hd, if_neg Bool.false_ne_true]

/-- Settles O21: the handoff of a rejected window. -/
theorem clkRiseDropsWindowWithoutMarker : Obligations.ClkRiseDropsWindowWithoutMarker := by
  intro s raw hv hk hidle hw hraw hmarker
  have hm : markerMatches raw = false := Bool.eq_false_iff.mpr fun h => hmarker ((markerMatches_iff raw).mp h)
  rw [exec_clkRise_last hw hv hk hraw, handoff_rejected hm, ← hidle]

/-- HAPTIC_DECIDE's condition in a choice (R137). -/
theorem ite_hapticFires {α : Type} (wheel : Byte) (pos : Option Byte) (a b : α) :
    (if hapticFires wheel pos then a else b) = if pos ≠ some wheel ∧ wheel.toNat % 2 = 0 then a else b :=
  if_congr (hapticFires_iff wheel pos) rfl rfl

/-- Settles O22: the handoff of an accepted window. -/
theorem clkRiseInterpretsAcceptedWindow : Obligations.ClkRiseInterpretsAcceptedWindow := by
  rintro s raw rec hv hk hidle hw hraw hmarker rfl
  have hm : markerMatches raw = true := (markerMatches_iff raw).mpr hmarker
  rw [exec_clkRise_last hw hv hk hraw, handoff_accepted hm, ← hidle, ite_hapticFires, ite_hapticFires]
  rfl

/-- Settles O23: what the write leaves in the assembler, the handoff leaves there. -/
theorem handoffClearsNothing : Obligations.HandoffClearsNothing := by
  intro s t hv hk hw h
  obtain rfl : clockRise s = t := Host.Outcome.next.inj ((exec_clkRise hv).symm.trans h)
  refine ⟨fun i hi => ?_, ?_, clockRise_synchronized hw, ?_⟩
  · rw [clockRise_bits hw, hk]
    exact packetBit_setPacketBit s.bits 31 s.dataLevel hi
  · rw [clockRise_last hw hk, handoff_bitIndex]
  · rw [clockRise_oneRunLength]
    split
    · next hd =>
      have := (hw hd).2
      rw [saturatingSucc_toNat]
      omega
    · rfl

/-- Settles O24: a zero is written in every state, and a write above the last cell changes none. -/
theorem zeroSampleSynchronisesAnywhere : Obligations.ZeroSampleSynchronisesAnywhere := by
  intro s hv hd
  have hw : s.Writes := State.writes_of_zero hd
  refine ⟨_, exec_clkRise hv, clockRise_synchronized hw, ?_, fun i hi => ?_⟩
  · rw [clockRise_oneRunLength, hd, if_neg Bool.false_ne_true]
  · rw [clockRise_bits hw, hd]
    exact packetBit_setPacketBit s.bits s.bitIndex.toNat false hi

/-- Settles O25: of the rows of R111's table, those that write synchronise, and the others leave `bits` alone and
stand at position 0. -/
theorem clkRiseWritesExactlyWhileSynchronised : Obligations.ClkRiseWritesExactlyWhileSynchronised := by
  intro s t hinv hv h
  obtain rfl : clockRise s = t := Host.Outcome.next.inj ((exec_clkRise hv).symm.trans h)
  rcases clockRise_cases s with ⟨-, -, h⟩ | ⟨-, -, hs, h⟩ | ⟨hw, -⟩
  · rw [h]
    exact ⟨nofun, fun _ => ⟨rfl, rfl⟩⟩
  · rw [h]
    exact ⟨fun hs' => absurd (hs.symm.trans hs') Bool.false_ne_true, fun _ => ⟨rfl, hinv.unsync_index hs⟩⟩
  · refine ⟨fun _ => ⟨fun i hi => ?_, clockRise_bitIndex hw hinv.index_lt⟩, fun hs => ?_⟩
    · rw [clockRise_bits hw]
      exact packetBit_setPacketBit s.bits s.bitIndex.toNat s.dataLevel hi
    · exact absurd (hs.symm.trans (clockRise_synchronized hw)) Bool.false_ne_true

/-! ### The run count above the threshold (R114) -/

/-- Two states that differ at most in the run count, and if so are unsynchronised with both counts at the
threshold or above. -/
def DifferInHighRunCount (s s' : State) : Prop :=
  ∃ c : Byte, s' = { s with oneRunLength := c } ∧
    (c = s.oneRunLength ∨ s.synchronized = false ∧ 32 ≤ s.oneRunLength.toNat ∧ 32 ≤ c.toNat)

/-- The two states may be one. -/
theorem DifferInHighRunCount.refl (s : State) : DifferInHighRunCount s s :=
  ⟨s.oneRunLength, rfl, .inl rfl⟩

/-- A zero's write does not read the count (R107). -/
theorem afterWrite_zero_oneRunLength {s : State} (hd : s.dataLevel = false) (c : Byte) :
    afterWrite { s with oneRunLength := c } = afterWrite s := by
  simp [afterWrite, hd]

/-- A count at the threshold stays there (R105, R114). -/
theorem le_saturatingSucc {c : Byte} (h : 32 ≤ c.toNat) : 32 ≤ (saturatingSucc c).toNat := by
  rw [saturatingSucc_toNat]
  omega

/-- On a one the guard takes both states (R106), and a zero ends both runs (R107). -/
theorem differInHighRunCount_clockRise {s : State} {c : Byte} (hs : 32 ≤ s.oneRunLength.toNat) (hc : 32 ≤ c.toNat) :
    DifferInHighRunCount (clockRise s) (clockRise { s with oneRunLength := c }) := by
  rcases Bool.eq_false_or_eq_true s.dataLevel with hd | hd
  · rw [clockRise_guard hd (Nat.le_of_succ_le hs),
      clockRise_guard (s := { s with oneRunLength := c }) hd (Nat.le_of_succ_le hc)]
    exact ⟨_, rfl, .inr ⟨rfl, le_saturatingSucc hs, le_saturatingSucc hc⟩⟩
  · rw [clockRise_write (State.writes_of_zero hd),
      clockRise_write (s := { s with oneRunLength := c }) (State.writes_of_zero hd), afterWrite_zero_oneRunLength hd c]
    exact .refl _

/-- Settles O46: every event keeps `DifferInHighRunCount`; a RESET makes the states equal. -/
theorem runCountAboveThresholdUnobservable : Obligations.RunCountAboveThresholdUnobservable := by
  intro i s t c hi hsync hs hc h
  have hcount : c = s.oneRunLength ∨ s.synchronized = false ∧ 32 ≤ s.oneRunLength.toNat ∧ 32 ≤ c.toNat :=
    .inr ⟨hsync, hs, hc⟩
  obtain ⟨t', ht', c', rfl, hc'⟩ := exec_event_sim (R := DifferInHighRunCount)
    (s' := { s with oneRunLength := c }) hi h rfl ⟨c, rfl, hcount⟩ ⟨c, rfl, hcount⟩ (fun _ => ⟨c, rfl, hcount⟩)
    (differInHighRunCount_clockRise hs hc) (.refl _)
  exact ⟨c', ht', hc'⟩

/-! ### Re-synchronisation by a run of ones (R118) -/

/-- Delivering `BIT b`, with nothing to come after it (R85). -/
theorem deliver_scriptBit {s : State} (hv : s.cfg.valid = true) (b : Bool) :
    deliver (scriptBit b) s = .next (s.sampleBit b) :=
  deliver_scriptBit_append hv b []

/-- A zero is in its cell after the step (R107, R108). -/
theorem sampleZero_bits (s : State) : (s.sampleBit false).bits = setPacketBit s.bits s.bitIndex.toNat false :=
  clockRise_bits (State.writes_of_zero rfl)

/-- Settles O52: the ones leave position 0 without synchronisation, and the zero synchronises and is written there. -/
theorem runOfOnesResynchronises : Obligations.RunOfOnesResynchronises := by
  intro s n hv hn
  have hcount := sampleOnes_oneRunLength s n
  obtain ⟨hsync, hstart⟩ := sampleOnes_desynchronises s hn
  refine ⟨⟨_, deliver_scriptRun hv true n, hsync, hstart, by omega⟩, ?_⟩
  have hv' : ((State.sampleBit true)^[n] s).cfg.valid = true := by rwa [iterate_sampleBit_cfg]
  refine ⟨_, (deliver_scriptRun_append hv true n _).trans (deliver_scriptBit hv' false),
    sampleZero_synchronized _, State.sampleBit_oneRunLength false _, ?_, BitVec.eq_of_toNat_eq ?_⟩
  · rw [sampleZero_bits, packetBit_setPacketBit _ _ _ (by decide), hstart]
    rfl
  · rw [sampleZero_bitIndex (by rw [hstart]; decide), hstart]
    rfl

/-! ### The assembly of a packet (R117) -/

/-- `t` is `s` after the first `k` samples of the packet `v`: they stand in the first `k` cells, and once there is
one the assembler is synchronised with a run shorter than `k`. Only the assembler and the data level have moved. -/
structure Assembling (v : Packet) (k : Nat) (s t : State) : Prop where
  index : t.bitIndex.toNat = k
  cells : ∀ j, j < k → packetBit t.bits j = packetBit v j
  run : k ≠ 0 → t.synchronized = true ∧ t.oneRunLength.toNat < k
  frame : t =
    { s with
      bits := t.bits, bitIndex := t.bitIndex, oneRunLength := t.oneRunLength
      synchronized := t.synchronized, dataLevel := t.dataLevel }

/-- At position 0 no sample is in yet, whatever the flag and the run. -/
theorem Assembling.start (v : Packet) {s : State} (h : s.bitIndex = 0#8) : Assembling v 0 s s where
  index := by rw [h]; rfl
  cells := nofun
  run := nofun
  frame := rfl

section Sample

variable {v : Packet} {k : Nat} {s t : State} (ht : Assembling v k s t) (hzero : packetBit v 0 = false)
include ht hzero

/-- A packet that begins with a zero is synchronised at each of its ones, with a run shorter than the position
(R107, R117). -/
theorem Assembling.run_of_one (hd : packetBit v k = true) : t.synchronized = true ∧ t.oneRunLength.toNat < k := by
  refine ht.run ?_
  rintro rfl
  exact Bool.false_ne_true (hzero.symm.trans hd)

/-- So the guard never trips, and every sample is written (R106, R117). -/
theorem Assembling.writes (hk : k ≤ 31) : State.Writes { t with dataLevel := packetBit v k } := by
  intro hd
  obtain ⟨hsync, hrun⟩ := ht.run_of_one hzero hd
  exact ⟨hsync, Nat.le_of_lt_succ (hrun.trans_le hk)⟩

/-- The written sample is the next one of the packet (R108). -/
theorem Assembling.written (hk : k ≤ 31) :
    Assembling v (k + 1) s (afterWrite { t with dataLevel := packetBit v k }) where
  index := by
    have hindex := ht.index
    simp only [afterWrite, BitVec.toNat_add, BitVec.toNat_ofNat]
    omega
  cells j hj := by
    simp only [afterWrite, ht.index, packetBit_setPacketBit _ _ _ (show j < 32 by omega)]
    split
    · next h => rw [h]
    · exact ht.cells j (by omega)
  run _ := by
    refine ⟨rfl, ?_⟩
    simp only [afterWrite]
    split
    · next hd =>
      have hrun := (ht.run_of_one hzero hd).2
      rw [saturatingSucc_toNat]
      omega
    · exact Nat.succ_pos k
  frame := by
    rw [ht.frame]
    rfl

end Sample

/-- Delivering the rest of a packet that begins with a zero writes it sample by sample, and the last sample hands
the window off (R108, R109, R117). -/
theorem deliver_scriptBitsFrom {v : Packet} {s : State} (hv : s.cfg.valid = true) (hzero : packetBit v 0 = false)
    (n : Nat) {k : Nat} (hk : k + n = 31) {t : State} (ht : Assembling v k s t) :
    ∃ u, Assembling v 32 s u ∧ deliver (scriptBitsFrom v k (n + 1)) t = .next (handoff u) := by
  induction n generalizing k t with
  | zero =>
    obtain rfl : k = 31 := hk
    have hvt : t.cfg.valid = true := by rwa [ht.frame]
    have hlast : t.sampleBit (packetBit v 31) = handoff _ := clockRise_last (ht.writes hzero le_rfl) ht.index
    exact ⟨_, ht.written hzero le_rfl,
      (deliver_scriptBit_append hvt _ []).trans (congrArg Host.Outcome.next hlast)⟩
  | succ n ih =>
    have hvt : t.cfg.valid = true := by rwa [ht.frame]
    have hindex : t.bitIndex.toNat ≤ 30 := by rw [ht.index]; omega
    have hinside : t.sampleBit (packetBit v k) = afterWrite _ :=
      clockRise_inside (ht.writes hzero (by omega)) hindex
    obtain ⟨u, hu, hdeliver⟩ := ih (by omega) (ht.written hzero (by omega))
    refine ⟨u, hu, (deliver_scriptBit_append hvt _ _).trans ?_⟩
    exact (congrArg (deliver (scriptBitsFrom v (k + 1) (n + 1))) hinside).trans hdeliver

/-- The handoff gives INTERPRET the window, and INTERPRET reads nothing else of the assembler (R109, R131). -/
theorem handoff_interprets (s : State) (b : Packet) (k c : Byte) (f d : Bool) :
    let u := handoff { s with bits := b, bitIndex := k, oneRunLength := c, synchronized := f, dataLevel := d }
    u.out = (interpret b s).out ∧ u.prevFrame = (interpret b s).prevFrame ∧
      u.lastRecord = (interpret b s).lastRecord ∧ u.hapticPos = (interpret b s).hapticPos := by
  intro u
  cases hm : markerMatches b with
  | false =>
    have hu : u = _ := handoff_rejected hm
    rw [hu, interpret_rejected s hm]
    exact ⟨rfl, rfl, rfl, rfl⟩
  | true =>
    have hu : u = _ := handoff_accepted hm
    rw [hu, interpret_accepted s hm]
    exact ⟨rfl, rfl, rfl, rfl⟩

/-- Settles O54: the marker begins with a zero, so the packet is assembled to the last cell and handed off. -/
theorem framedPacketAssembledExactly : Obligations.FramedPacketAssembledExactly := by
  intro s v hv hstart hmarker
  obtain ⟨hzero, -⟩ := (markerMatches_iff_samples v).mp hmarker
  obtain ⟨u, hu, hdeliver⟩ := deliver_scriptBitsFrom hv hzero 31 (Nat.zero_add 31) (.start v hstart)
  have hbits : u.bits = v := packet_ext hu.cells
  have hsync : u.synchronized = true := (hu.run (by decide)).1
  have hinterpret := handoff_interprets s u.bits u.bitIndex u.oneRunLength u.synchronized u.dataLevel
  rw [← hu.frame, hbits] at hinterpret
  exact ⟨handoff u, hdeliver, (handoff_bits u).trans hbits, handoff_bitIndex u,
    (handoff_synchronized u).trans hsync, hinterpret⟩

end Sys2Proof.Machine
end

section
/-!
PROOFS. The rules of 41_interpreter.md: the rows BUTTON_DECODE, WHEEL_EXTRACT, HAPTIC_DECIDE, DEDUP and DISPATCH
(R133 to R142, R146), and INTERPRET on whole frames (R141, R145, R149, R150, R151).
-/

namespace Sys2Proof.Machine

/-! ### BUTTON_DECODE (R133 to R135) -/

section Buttons

variable {c : Config} {raw prev : Packet} {b : ButtonId}

/-- The last changed button of the loop is the one in the slot (R134). -/
theorem foldl_decodeButton_last (before after : List ButtonId) (slot : Option Transition)
    (hb : packetBit raw (c.pos b) ≠ packetBit prev (c.pos b))
    (hafter : ∀ d ∈ after, packetBit raw (c.pos d) = packetBit prev (c.pos d)) :
    (before ++ b :: after).foldl (decodeButton c raw prev) slot =
      some { id := BitVec.ofNat 5 (c.pos b), pressed := packetBit raw (c.pos b) } := by
  rw [List.foldl_append, List.foldl_cons, decodeButton_changed _ hb, foldl_decodeButton_same after _ hafter]

/-- A changed button leaves some transition in the slot, its own or a later one's (R133). -/
theorem decodeButtons_ne_none (hb : packetBit raw (c.pos b) ≠ packetBit prev (c.pos b)) :
    decodeButtons c raw prev ≠ none := by
  obtain ⟨before, after, hsplit⟩ := List.append_of_mem (mem_order b)
  rw [decodeButtons, hsplit, List.foldl_append, List.foldl_cons, decodeButton_changed _ hb]
  rcases foldl_decodeButton_cases (c := c) (raw := raw) (prev := prev) after _ with h | ⟨d, -, -, h⟩
  · exact h ▸ Option.some_ne_none _
  · exact h ▸ Option.some_ne_none _

/-- The slot is empty exactly when no button has changed (R135). -/
theorem decodeButtons_eq_none_iff :
    decodeButtons c raw prev = none ↔ ∀ b, packetBit raw (c.pos b) = packetBit prev (c.pos b) := by
  refine ⟨fun h b => ?_, fun h => foldl_decodeButton_same _ _ fun b _ => h b⟩
  by_contra hb
  exact decodeButtons_ne_none hb h

/-- Of one changed button alone, the slot tells its position and its new bit (R133). -/
theorem decodeButtons_of_only_changed (hb : packetBit raw (c.pos b) ≠ packetBit prev (c.pos b))
    (hothers : ∀ d, d ≠ b → packetBit raw (c.pos d) = packetBit prev (c.pos d)) :
    decodeButtons c raw prev =
      some { id := BitVec.ofNat 5 (c.pos b), pressed := packetBit raw (c.pos b) } := by
  rcases foldl_decodeButton_cases ButtonId.order none with h | ⟨d, -, hd, h⟩
  · exact absurd h (decodeButtons_ne_none hb)
  · obtain rfl : d = b := not_imp_comm.mp (hothers d) hd
    exact h

end Buttons

/-- Settles O27: an empty slot means no change, and the loop overwrites the slot at each changed button. -/
theorem buttonDecodeReportsLastChange : Obligations.ButtonDecodeReportsLastChange := by
  intro raw s
  refine ⟨decodeButtons s.cfg raw s.prevFrame, rfl, decodeButtons_eq_none_iff, ?_⟩
  intro before after b hsplit hb hafter
  have hslot := foldl_decodeButton_last before after none hb hafter
  exact ⟨_, by rw [decodeButtons, ButtonId.order, hsplit, hslot], id_of_changed hb, rfl⟩

/-! ### WHEEL_EXTRACT (R136) -/

/-- The low `n` bits of a number, weighted and summed, are its residue. -/
theorem sum_testBit_eq_mod (x n : Nat) :
    ((List.range n).map fun k => (x.testBit k).toNat * 2 ^ k).sum = x % 2 ^ n := by
  induction n with
  | zero => simp [Nat.mod_one]
  | succ n ih =>
    rw [List.range_succ, List.map_append, List.sum_append, ih, Nat.mod_pow_succ]
    simp [Nat.toNat_testBit, Nat.mul_comm]

/-- The wheel field is the unsigned number of packet bits 23..16 (R78, decision D9). -/
theorem wheelField_toNat (raw : Packet) :
    (wheelField raw).toNat = ((List.range 8).map fun k => (packetBit raw (16 + k)).toNat * 2 ^ k).sum := by
  have hbits : ∀ k ∈ List.range 8, (packetBit raw (16 + k)).toNat * 2 ^ k =
      ((wheelField raw).toNat.testBit k).toNat * 2 ^ k := fun k hk => by
    rw [← wheelField_getLsbD raw (List.mem_range.mp hk), BitVec.getLsbD]
  rw [List.map_congr_left hbits, sum_testBit_eq_mod, Nat.mod_eq_of_lt (wheelField raw).isLt]

/-- Settles O28: the row keeps the wheel field, and the field is that sum. -/
theorem wheelExtractSumsBits16To23 : Obligations.WheelExtractSumsBits16To23 :=
  fun raw _ => ⟨wheelField raw, rfl, wheelField_toNat raw⟩

/-! ### HAPTIC_DECIDE (R137, R141) -/

/-- HAPTIC_DECIDE on a new even position (R137). -/
theorem hapticDecide_fires {wheel : Byte} {s : State} (h : hapticFires wheel s.hapticPos = true) :
    hapticDecide wheel s = { s with hapticPos := some wheel, out := s.out ++ [.hapticFire] } := by
  simp [hapticDecide_eq, h]

/-- HAPTIC_DECIDE on any other position (R137). -/
theorem hapticDecide_idle {wheel : Byte} {s : State} (h : hapticFires wheel s.hapticPos = false) :
    hapticDecide wheel s = s := by
  simp [hapticDecide_eq, h]

/-- Settles O29: the statement's two premises are the two values of the firing condition. -/
theorem hapticDecideFiresOnNewEven : Obligations.HapticDecideFiresOnNewEven := by
  intro wheel s
  refine ⟨fun heven hnew => ?_, fun hidle => ?_⟩
  · exact congrArg Host.Outcome.next (hapticDecide_fires ((hapticFires_iff _ _).mpr ⟨hnew, heven⟩))
  · refine congrArg Host.Outcome.next (hapticDecide_idle (Bool.eq_false_iff.mpr fun hfire => ?_))
    obtain ⟨hnew, heven⟩ := (hapticFires_iff _ _).mp hfire
    rcases hidle with hodd | hlast
    · omega
    · exact hnew hlast

/-- The position HAPTIC_DECIDE has just evaluated does not fire again (R137, R141). -/
theorem hapticFires_again (w : Byte) (pos : Option Byte) :
    hapticFires w (if hapticFires w pos then some w else pos) = false :=
  hapticFires_eq_false hapticPos_next_of_even

section Accepted

variable {raw : Packet} {s : State} (hm : markerMatches raw = true)
include hm

/-- The haptic memory after an accepted packet (R137). -/
theorem interpret_hapticPos :
    (interpret raw s).hapticPos =
      if hapticFires (wheelField raw) s.hapticPos then some (wheelField raw) else s.hapticPos := by
  rw [interpret_accepted s hm]

/-- The record memory after an accepted packet: a suppressed record is the one remembered already (R142, R146). -/
theorem interpret_lastRecord : (interpret raw s).lastRecord = some (candidateOf raw s) := by
  rw [interpret_accepted s hm]

/-- The outputs of an accepted packet, in R143's order. -/
theorem interpret_out :
    (interpret raw s).out = s.out ++ (if hapticFires (wheelField raw) s.hapticPos then [.hapticFire] else [])
      ++ (if s.lastRecord = some (candidateOf raw s) then [] else [recordOutput (candidateOf raw s)]) := by
  rw [interpret_accepted s hm]

/-- INTERPRET leaves the configuration (R32). -/
theorem interpret_cfg : (interpret raw s).cfg = s.cfg := by
  rw [interpret_accepted s hm]

/-- An accepted packet emits a pulse exactly when HAPTIC_DECIDE fires (R137, R143). -/
theorem count_hapticFire_interpret :
    (interpret raw s).out.count .hapticFire =
      s.out.count .hapticFire + (hapticFires (wheelField raw) s.hapticPos).toNat := by
  have hrecord : List.count Output.hapticFire
      (if s.lastRecord = some (candidateOf raw s) then [] else [recordOutput (candidateOf raw s)]) = 0 := by
    split <;> simp [recordOutput]
  rw [interpret_out hm, List.count_append, List.count_append, hrecord]
  cases hapticFires (wheelField raw) s.hapticPos <;> rfl

end Accepted

/-- Settles O48: 2 is new and fires, 3 is odd and 2 is no longer new, and 4 is new again. -/
theorem hapticHalving : Obligations.HapticHalving := by
  intro s p q r hs hp hq hr hwp hwq hwr a b c
  have hfirst : hapticFires 2#8 s.hapticPos = true := (hapticFires_iff _ _).mpr ⟨hs, rfl⟩
  have ha : a.hapticPos = some 2#8 := by rw [interpret_hapticPos hp, hwp, if_pos hfirst]
  have hsecond : hapticFires (wheelField q) (some 2#8) = false := by
    rcases hwq with h | h
    · rw [h]; decide
    · rw [h]; decide
  have hb : b.hapticPos = some 2#8 := by rw [interpret_hapticPos hq, ha, hsecond, if_neg Bool.false_ne_true]
  refine ⟨?_, ?_, ?_⟩
  · rw [count_hapticFire_interpret hp, hwp, hfirst]; rfl
  · rw [count_hapticFire_interpret hq, ha, hsecond]; rfl
  · rw [count_hapticFire_interpret hr, hb, hwr]; rfl

/-! ### DEDUP and DISPATCH (R142, R146) -/

/-- Settles O30: the comparison of the records is that of their bytes, which determine them. -/
theorem dedupComparesWithLastRecord : Obligations.DedupComparesWithLastRecord := by
  intro rec s
  refine ⟨s.lastRecord == some rec, rfl, beq_iff_eq, ?_⟩
  exact beq_iff_eq.trans (Option.map_injective recordOutput_injective).eq_iff.symm

/-- Byte 1 of a record with a transition is its new bit as a number (R81). -/
theorem recordByte1_some (t : Transition) (wheel : Byte) :
    recordByte1 { slot := some t, wheel := wheel } = BitVec.ofNat 8 t.pressed.toNat := by
  cases h : t.pressed <;> simp [recordByte1, h]

/-- The bytes of a record with a transition (R81, decision D8). -/
theorem recordOutput_some (t : Transition) (wheel : Byte) :
    recordOutput { slot := some t, wheel := wheel } =
      .record (BitVec.ofNat 8 t.id.toNat) (BitVec.ofNat 8 t.pressed.toNat) wheel := by
  rw [recordOutput, recordByte1_some, BitVec.ofNat_toNat]
  rfl

/-- Settles O31: DISPATCH emits the record's bytes, which the two shapes of the slot give. -/
theorem dispatchRemembersAndEmits : Obligations.DispatchRemembersAndEmits := by
  refine fun raw wheel s => ⟨rfl, fun id p => ?_⟩
  rw [← recordOutput_some { id := id, pressed := p } wheel]
  rfl

/-! ### A transition is never suppressed (R145) -/

/-- The last record dispatched carries no transition that BUTTON_DECODE can now find: its button has that very bit
in `prevFrame` (R34 item 5, R145). -/
theorem lastRecord_ne_of_transition {s : State} (hs : Inv s) {raw : Packet} {r : OutputRecord} {t : Transition}
    (ht : decodeButtons s.cfg raw s.prevFrame = some t) (hr : r.slot = some t) : s.lastRecord ≠ some r := by
  intro hlast
  exact (decodeButtons_some_changed ht).2 (hs.pressed_prev r t hlast hr)

/-- Settles O36: DEDUP compares with a record that cannot carry the transition. -/
theorem transitionIsNeverSuppressed : Obligations.TransitionIsNeverSuppressed := by
  intro s t u raw tr wheel hs ht hslot hu
  obtain rfl : buttonDecode raw s = t := Host.Outcome.next.inj ht
  obtain rfl : dedup { slot := some tr, wheel := wheel } (buttonDecode raw s) = u := Host.Outcome.next.inj hu
  exact beq_false_of_ne (lastRecord_ne_of_transition hs hslot rfl)

/-! ### A Center press (R149) -/

/-- The candidate record of a Center press (R133, R139). -/
theorem candidateOf_centerPress {s : State} {raw : Packet} (hprev : packetBit s.prevFrame 7 = false)
    (hraw : packetBit raw 7 = true)
    (hothers : ∀ b, b ≠ .center → packetBit raw (s.cfg.pos b) = packetBit s.prevFrame (s.cfg.pos b)) :
    candidateOf raw s = { slot := some { id := 7#5, pressed := true }, wheel := wheelField raw } := by
  have hcenter : packetBit raw (s.cfg.pos .center) ≠ packetBit s.prevFrame (s.cfg.pos .center) := by
    simp [Config.pos, btnCenter, hprev, hraw]
  simp [candidateOf, decodeButtons_of_only_changed hcenter hothers, Config.pos, btnCenter, hraw]

/-- Settles O49: the press is the only transition, so the candidate is that record, and it is not suppressed. -/
theorem centerPressGivesOneRecord : Obligations.CenterPressGivesOneRecord := by
  intro s raw hs hv hm hprev hraw hothers
  obtain ⟨hrange, hdistinct⟩ := s.cfg.valid_iff.mp hv
  have hcandidate := candidateOf_centerPress hprev hraw fun b hb =>
    hothers (s.cfg.pos b) (hrange b) (hdistinct b .center hb)
  have hnew : s.lastRecord ≠ some (candidateOf raw s) :=
    lastRecord_ne_of_transition hs (congrArg OutputRecord.slot hcandidate) (congrArg OutputRecord.slot hcandidate)
  refine ⟨_, (interpret_out hm).trans (List.append_assoc _ _ _), ?_⟩
  rw [if_neg hnew, hcandidate]
  cases hapticFires (wheelField raw) s.hapticPos <;> rfl

/-! ### A repeated frame (R150) -/

section Repeat

variable {raw : Packet} {s : State} (hs : Inv s) (hm : markerMatches raw = true)
include hs hm

/-- After INTERPRET the last accepted frame has the packet's buttons: it is the packet, or the record was suppressed
and so carried no transition (R145, R150). -/
theorem interpret_prevFrame_buttons (b : ButtonId) :
    packetBit raw (s.cfg.pos b) = packetBit (interpret raw s).prevFrame (s.cfg.pos b) := by
  rw [interpret_accepted s hm]
  split
  · next hd =>
    have hslot : decodeButtons s.cfg raw s.prevFrame = none :=
      Option.eq_none_iff_forall_ne_some.mpr fun t ht => lastRecord_ne_of_transition hs ht ht hd
    exact decodeButtons_eq_none_iff.mp hslot b
  · rfl

/-- The candidate record of the repeat carries no transition (R150). -/
theorem candidateOf_repeat : candidateOf raw (interpret raw s) = { slot := none, wheel := wheelField raw } := by
  have hslot := decodeButtons_eq_none_iff.mpr (interpret_prevFrame_buttons hs hm)
  rw [candidateOf, interpret_cfg hm, hslot]

/-- The repeat emits no pulse, and its record unless the first frame's was the same (R150). -/
theorem interpret_repeat_out :
    (interpret raw (interpret raw s)).out = (interpret raw s).out ++
      if decodeButtons s.cfg raw s.prevFrame = none then [] else [.record 0xFF#8 0x00#8 (wheelField raw)] := by
  have hpulse : hapticFires (wheelField raw) (interpret raw s).hapticPos = false := by
    rw [interpret_hapticPos hm, hapticFires_again]
  have hsame : (interpret raw s).lastRecord = some { slot := none, wheel := wheelField raw } ↔
      decodeButtons s.cfg raw s.prevFrame = none := by
    simp [interpret_lastRecord hm, candidateOf]
  rw [interpret_out hm, hpulse, candidateOf_repeat hs hm, if_neg Bool.false_ne_true, List.append_nil,
    if_congr hsame rfl rfl]
  rfl

end Repeat

/-- Settles O50: whether the first frame had a transition decides whether the repeat's record is new. -/
theorem repeatedFrameOutputs : Obligations.RepeatedFrameOutputs := by
  intro s raw hs hm
  rw [interpret_repeat_out hs hm]
  refine ⟨fun hsame => ?_, fun ⟨b, hb⟩ => ?_⟩
  · rw [if_pos (decodeButtons_eq_none_iff.mpr hsame), List.append_nil]
  · rw [if_neg (decodeButtons_ne_none hb)]

/-! ### The end-to-end scenario (R151) -/

/-- The set bits of the scenario's packet (R151, log 7). -/
theorem packetBit_endToEnd {i : Nat} (hi : i < 32) :
    packetBit 0x00040096#32 i = decide (i = 1 ∨ i = 2 ∨ i = 4 ∨ i = 7 ∨ i = 18) := by
  revert i
  decide

/-- Settles O55: the packet is assembled and interpreted once, as a Center press at the new wheel position 4. -/
theorem endToEndCenterPress : Obligations.EndToEndCenterPress := by
  intro s hv hstart hprev hlast hpos hfree
  have hm : markerMatches 0x00040096#32 = true := by decide
  obtain ⟨t, ht, -, -, -, hout, hframe, -, hhaptic⟩ := framedPacketAssembledExactly s 0x00040096#32 hv hstart hm
  obtain ⟨hrange, hdistinct⟩ := s.cfg.valid_iff.mp hv
  have hothers : ∀ b, b ≠ .center →
      packetBit 0x00040096#32 (s.cfg.pos b) = packetBit s.prevFrame (s.cfg.pos b) := fun b hb => by
    have h7 : s.cfg.pos b ≠ 7 := hdistinct b .center hb
    obtain ⟨h1, h2, h4, h18⟩ := hfree b hb
    rw [packetBit_endToEnd (hrange b), hprev]
    simp [h1, h2, h4, h7, h18, packetBit]
  have hcandidate := candidateOf_centerPress (s := s) (by rw [hprev]; rfl) (by decide) hothers
  refine ⟨t, ht, ?_, ?_, ?_⟩
  · rw [hout, interpret_out hm, hcandidate, hlast, hpos, List.append_assoc]
    rfl
  · rw [hframe, interpret_accepted s hm, hlast]
    rfl
  · rw [hhaptic, interpret_hapticPos hm, hpos]
    rfl

end Sys2Proof.Machine
end

section
/-!
PROOFS. The rules of 60_exceptions.md: no step faults (R170, R174), and the refusal mark (R176).
-/

namespace Sys2Proof.Machine

/-! ### No fault (R170, R174) -/

/-- Settles O5: with no event pending the core waits, and every row that an event decodes to answers a next state. -/
theorem stepAlwaysCompletes : Obligations.StepAlwaysCompletes := by
  intro s
  cases hp : s.pending with
  | nil => exact ⟨s, step_of_pending_nil hp⟩
  | cons w rest =>
    rw [step_of_pending_cons hp]
    exact exec_next (decode w) _

/-! ### The refusal mark (R176) -/

@[simp] theorem handoff_refusalMark (s : State) : (handoff s).refusalMark = s.refusalMark :=
  congrArg (·.refusalMark) (handoff_frame s)
@[simp] theorem clockRise_refusalMark (s : State) : (clockRise s).refusalMark = s.refusalMark :=
  clockRise_rec (P := (·.refusalMark = s.refusalMark)) (fun _ _ _ _ => rfl) (handoff_refusalMark _)
@[simp] theorem Registers.afterReset_refusalMark (level : Bool) : (afterReset level).refusalMark = false := rfl

/-- The mark after an event: a refusal sets it, an accepted RESET clears it, and any other accepted event keeps it
(R176, log 5). -/
theorem exec_event_refusalMark {i : Instr} {s t : State} (hi : i.isEvent = true) (h : exec i s = .next t) :
    t.refusalMark = true ↔
      s.cfg.valid = false ∨ i.isReserved = true ∨ (s.refusalMark = true ∧ i ≠ .reset) := by
  rcases exec_event_cases hi h with
    ⟨hrefused, rfl⟩ | ⟨hv, ⟨rfl, rfl⟩ | ⟨rfl, rfl⟩ | ⟨rfl, rfl⟩ | ⟨rfl, rfl⟩ | ⟨rfl, rfl⟩⟩
  · exact iff_of_true rfl (or_assoc.mp (.inl hrefused))
  all_goals simp [hv, Instr.isReserved]

/-- Settles O12: the step runs the event its first word decodes to, on a state with the same mark and configuration. -/
theorem refusalMarkClearedOnlyByReset : Obligations.RefusalMarkClearedOnlyByReset := by
  intro s t w rest hp h
  rw [step_of_pending_cons hp] at h
  exact exec_event_refusalMark (s := { s with pending := rest }) (decode_isEvent w) h

end Sys2Proof.Machine
end

section
/-!
PROOFS. The rules of 70_reset_and_hazards.md: RESET (R200), and power-on as one RESET (R201).
-/

namespace Sys2Proof.Machine

/-! ### RESET (R200) -/

/-- An accepted RESET: every register to its value of R35, and one draw made (R200). -/
theorem exec_reset {s : State} (hv : s.cfg.valid = true) : exec .reset s = .next (resetEvent s) :=
  congrArg _ (s.whenConfigured_valid resetEvent hv)

/-- Settles O13: the registers a RESET gives are written out in R35, and the second RESET, accepted because the
first keeps the configuration, differs in the draw. -/
theorem resetEventRestoresRegisters : Obligations.ResetEventRestoresRegisters := by
  intro s hv
  refine ⟨exec_reset hv, fun t ht => ?_⟩
  obtain rfl : resetEvent s = t := Host.Outcome.next.inj ((exec_reset hv).symm.trans ht)
  exact exec_reset (s := resetEvent s) hv

/-! ### Power-on (R201) -/

/-- The configuration at power-on passes the check (R11). -/
theorem reset_cfg_valid : State.reset.cfg.valid = true :=
  (@Config.device ⟨someValidConfig⟩).property

/-- One RESET gives the state at power-on, once the model's own fields are those of power-on and the next draw is
the one made there (R201, logs 1 to 4). -/
theorem resetEvent_eq_reset {s : State} (hcfg : s.cfg = State.reset.cfg) (hpending : s.pending = [])
    (hout : s.out = []) (hdraws : s.draws + 1 = State.reset.draws) (htemps : AtBoundary s) :
    resetEvent s = State.reset := by
  have hdraw : s.draws = 0 := Nat.succ.inj hdraws
  have htemps : s.temps = Temps.idle := htemps
  simp [resetEvent, State.reset, hcfg, hpending, hout, hdraw, htemps]

/-- Settles O15: at power-on no event is pending, so the core waits; an accepted RESET gives the registers of R35
from every state, and the whole state at power-on where the other fields agree. -/
theorem powerOnIsOneReset : Obligations.PowerOnIsOneReset := by
  refine ⟨reset_cfg_valid, step_of_pending_nil rfl, fun s hv => ⟨resetEvent s, exec_reset hv, rfl⟩, ?_⟩
  intro s hcfg hpending hout hdraws htemps
  have hv : s.cfg.valid = true := hcfg ▸ reset_cfg_valid
  rw [exec_reset hv, resetEvent_eq_reset hcfg hpending hout hdraws htemps]

end Sys2Proof.Machine
end
